-- ==== Sys2Proof/Word.lean ====
section
/-!
DEFINITION. The bit-vector types of the archlab2 core (spec/00_scope.md R6): words, word addresses, register
indices, opcode values.
-/

namespace Sys2Proof

/-- A general register, a staging register, a memory word, an instruction word: XLEN = ILEN = 32 bits (R6). -/
abbrev Word := BitVec 32

/-- A word address and the program counter: PCW = 16 bits (R6, R32). -/
abbrev Addr := BitVec 16

/-- A register index as an instruction spells it: IDXW = 3 bits (R6, R11). -/
abbrev RegIx := BitVec 3

/-- An opcode value: OPW = 5 bits (R6). -/
abbrev Code := BitVec 5

/-- The number of words of the one memory: MEMWORDS = 65 536 (R6, R30). -/
abbrev memWords : Nat := 65536

end Sys2Proof
end

