-- ==== Sys2Proof/Syntax.lean ====
section
/-!
DEFINITION. The instructions of the archlab2 ISA: one constructor of `Instr` per row of spec/opcode_table.json
(spec/30_encoding.md R51). Every instruction has the one format of R45, so every constructor carries the same
fields; the fields an instruction ignores (R49) and the unused bits 31:30 (R46) are carried too, because the
snapshot and the trace record show them.
-/

namespace Sys2Proof

/-- The sixteen names of R51, in the table's order. -/
inductive Op where
  | add | sub | lsf | rsf | and | or | xor | lhi | ld | st | jlt | jle | jeq | jne | jin | hlt
deriving DecidableEq, Repr

/-- The fields of the one instruction format beside the opcode (R45). -/
structure Fields where
  /-- Bits 31:30, in no field of the decoder (R46). -/
  unused : BitVec 2
  /-- Bits 24:22. -/
  dst : RegIx
  /-- Bits 21:19. -/
  src0 : RegIx
  /-- Bits 18:16. -/
  src1 : RegIx
  /-- Bits 15:0, the raw immediate field. -/
  imm16 : BitVec 16
deriving DecidableEq, Repr

/-- An instruction of the archlab2 ISA (R51). -/
inductive Instr where
  | add (f : Fields)
  | sub (f : Fields)
  | lsf (f : Fields)
  | rsf (f : Fields)
  | and (f : Fields)
  | or (f : Fields)
  | xor (f : Fields)
  | lhi (f : Fields)
  | ld (f : Fields)
  | st (f : Fields)
  | jlt (f : Fields)
  | jle (f : Fields)
  | jeq (f : Fields)
  | jne (f : Fields)
  | jin (f : Fields)
  | hlt (f : Fields)
deriving DecidableEq, Repr

/-- The name of an instruction. -/
def Instr.op : Instr → Op
  | .add _ => .add
  | .sub _ => .sub
  | .lsf _ => .lsf
  | .rsf _ => .rsf
  | .and _ => .and
  | .or _ => .or
  | .xor _ => .xor
  | .lhi _ => .lhi
  | .ld _ => .ld
  | .st _ => .st
  | .jlt _ => .jlt
  | .jle _ => .jle
  | .jeq _ => .jeq
  | .jne _ => .jne
  | .jin _ => .jin
  | .hlt _ => .hlt

/-- The fields of an instruction. -/
def Instr.fields : Instr → Fields
  | .add f | .sub f | .lsf f | .rsf f | .and f | .or f | .xor f | .lhi f
  | .ld f | .st f | .jlt f | .jle f | .jeq f | .jne f | .jin f | .hlt f => f

/-- The instruction of a name and its fields. -/
def Instr.make : Op → Fields → Instr
  | .add, f => .add f
  | .sub, f => .sub f
  | .lsf, f => .lsf f
  | .rsf, f => .rsf f
  | .and, f => .and f
  | .or, f => .or f
  | .xor, f => .xor f
  | .lhi, f => .lhi f
  | .ld, f => .ld f
  | .st, f => .st f
  | .jlt, f => .jlt f
  | .jle, f => .jle f
  | .jeq, f => .jeq f
  | .jne, f => .jne f
  | .jin, f => .jin f
  | .hlt, f => .hlt f

/-- All sixteen names. -/
def Op.all : List Op :=
  [.add, .sub, .lsf, .rsf, .and, .or, .xor, .lhi, .ld, .st, .jlt, .jle, .jeq, .jne, .jin, .hlt]

end Sys2Proof
end

