-- ==== Sys2Proof/Config.lean ====
section
/-!
DEFINITION. The open parameters of spec/00_scope.md R7, each a field of `Config`, with every value the spec lists.
The spec's defaults are `OpMap.standard` (Decode.lean) and `Config.standard` (Machine/Params.lean).
-/

namespace Sys2Proof

/-- OPMAP: the 5-bit number of each of the sixteen instructions (R7, R51). -/
structure OpMap where
  add : Code
  sub : Code
  lsf : Code
  rsf : Code
  and : Code
  or : Code
  xor : Code
  lhi : Code
  ld : Code
  st : Code
  jlt : Code
  jle : Code
  jeq : Code
  jne : Code
  jin : Code
  hlt : Code
deriving DecidableEq, Repr

/-- The number the map gives a name. -/
def OpMap.code (m : OpMap) : Op → Code
  | .add => m.add
  | .sub => m.sub
  | .lsf => m.lsf
  | .rsf => m.rsf
  | .and => m.and
  | .or => m.or
  | .xor => m.xor
  | .lhi => m.lhi
  | .ld => m.ld
  | .st => m.st
  | .jlt => m.jlt
  | .jle => m.jle
  | .jeq => m.jeq
  | .jne => m.jne
  | .jin => m.jin
  | .hlt => m.hlt

/-- RSHIFT_FILL (R7, R82): what a right shift shifts in. -/
inductive ShiftFill where
  /-- Zeros (logical). -/
  | zero
  /-- Copies of bit 31 (arithmetic). -/
  | sign
deriving DecidableEq, Repr

/-- SHIFT_OOR (R7, R82, R83): the result of a shift by 32 or more. -/
inductive ShiftOor where
  /-- The mathematical result. -/
  | zero
  /-- The amount taken modulo 32. -/
  | mod32
  /-- An arbitrary total function of the two operands. -/
  | arbitrary
deriving DecidableEq, Repr

/-- DATA_ADDR_OOR (R7, R32): a load or store whose address has any of bits 31:16 set. -/
inductive DataAddrOor where
  /-- Bits 31:16 are ignored. -/
  | truncate
  /-- The access has no meaning. -/
  | refuse
deriving DecidableEq, Repr

/-- The eight open parameters of R7. -/
structure Config where
  /-- OPMAP -/
  opMap : OpMap
  /-- RSHIFT_FILL -/
  rshiftFill : ShiftFill
  /-- SHIFT_OOR -/
  shiftOor : ShiftOor
  /-- CMP_SIGNED -/
  cmpSigned : Bool
  /-- DATA_ADDR_OOR -/
  dataAddrOor : DataAddrOor
  /-- MEM_FILL -/
  memFill : Word
  /-- CYCW: `none` is `unbounded`, `some n` a counter of `n` bits. -/
  cycw : Option Nat
  /-- TRACE_INDEX_BASE -/
  traceIndexBase : Nat
deriving DecidableEq, Repr

/-- SHIFT_OOR = an arbitrary function (R7), for the shift to the right: a free value, log entry 6. -/
opaque Config.arbitraryShiftRight : Word → Word → Word

/-- SHIFT_OOR = an arbitrary function (R7), for the shift to the left: a free value, log entry 6. -/
opaque Config.arbitraryShiftLeft : Word → Word → Word

end Sys2Proof
end

