-- ==== Sys2Proof/WellFormed.lean ====
section
/-!
DEFINITION. The checks on what a model's user writes down: an opcode map, an instruction under a map, an instruction
in the assembler notation's canonical spelling.
-/

namespace Sys2Proof

/-- A legal value of OPMAP is an injective map of the sixteen names (spec/00_scope.md R7). -/
abbrev OpMap.Injective (m : OpMap) : Prop := (Op.all.map m.code).Nodup

/-- An instruction is well-formed under a map when its number names it alone. Every field value is legal: register
indices are in range by construction (spec/10_state.md R11) and no field value is reserved (spec/30_encoding.md R54). -/
abbrev Instr.WellFormed (m : OpMap) (i : Instr) : Prop := ∀ o ∈ Op.all, m.code o = m.code i.op → o = i.op

/-- Which of `dst`, `src0`, `src1`, `imm16` an instruction ignores whatever the others hold (spec/30_encoding.md R49). -/
structure Ignored where
  dst : Bool
  src0 : Bool
  src1 : Bool
  imm16 : Bool
deriving DecidableEq, Repr

/-- The table of R49. An immediate used "only where a source index is 1" counts as ignored when no used source is 1. -/
def Instr.ignored : Instr → Ignored
  | .add f | .sub f | .lsf f | .rsf f | .and f | .or f | .xor f =>
    ⟨false, false, false, f.src0 != 1 && f.src1 != 1⟩
  | .lhi _ => ⟨false, true, true, false⟩
  | .ld f => ⟨false, true, false, f.src1 != 1⟩
  | .st f => ⟨true, false, false, f.src0 != 1 && f.src1 != 1⟩
  | .jlt _ | .jle _ | .jeq _ | .jne _ => ⟨true, false, false, false⟩
  | .jin _ => ⟨true, true, true, false⟩
  | .hlt _ => ⟨true, true, true, true⟩

/-- The canonical spelling of R57: bits 31:30 zero and every ignored field written as `r0` or `0`. -/
def Instr.canonical (i : Instr) : Bool :=
  i.fields.unused == 0
    && (!i.ignored.dst || i.fields.dst == 0)
    && (!i.ignored.src0 || i.fields.src0 == 0)
    && (!i.ignored.src1 || i.fields.src1 == 0)
    && (!i.ignored.imm16 || i.fields.imm16 == 0)

end Sys2Proof
end

