-- ==== Sys2Proof/Decode.lean ====
section
/-!
DEFINITION. The Instruction Decoder (spec/30_encoding.md R45 to R48), the default opcode map (R51), the encoder (R56)
and the host's reading of a table word.
-/

namespace Sys2Proof

/-- The default of OPMAP (R51): numbers from outside the source, log entry 4. -/
def OpMap.standard : OpMap where
  add := 0
  sub := 1
  lsf := 2
  rsf := 3
  and := 4
  or := 5
  xor := 6
  lhi := 7
  ld := 8
  st := 9
  jlt := 16
  jle := 17
  jeq := 18
  jne := 19
  jin := 20
  hlt := 24

/-- `inst[29:25]` (R47). -/
def wordOpcode (w : Word) : Code := w.extractLsb' 25 5

/-- `inst[24:22]` (R47). -/
def wordDst (w : Word) : RegIx := w.extractLsb' 22 3

/-- `inst[21:19]` (R47). -/
def wordSrc0 (w : Word) : RegIx := w.extractLsb' 19 3

/-- `inst[18:16]` (R47). -/
def wordSrc1 (w : Word) : RegIx := w.extractLsb' 16 3

/-- `inst[15:0]`, the raw immediate field (R45). -/
def wordImm16 (w : Word) : BitVec 16 := w.extractLsb' 0 16

/-- `inst[31:30]`, in no field of the decoder (R46). -/
def wordUnused (w : Word) : BitVec 2 := w.extractLsb' 30 2

/-- The fields of a word beside its opcode (R45). -/
def wordFields (w : Word) : Fields where
  unused := wordUnused w
  dst := wordDst w
  src0 := wordSrc0 w
  src1 := wordSrc1 w
  imm16 := wordImm16 w

/-- `sext_32` of the raw immediate field (R48). -/
def immediateOf (k : BitVec 16) : Word := k.signExtend 32

/-- The instruction a map names by an opcode value, if any (R53). -/
def OpMap.lookup (m : OpMap) (c : Code) : Option Op := Op.all.find? fun o => m.code o == c

/-- Why a word is no instruction of the opcode table. -/
inductive DecodeError where
  /-- The opcode value names no instruction (R53). The machine still runs the word, as R106 says. -/
  | unrecognised (opcode : Code)
deriving DecidableEq, Repr

/-- The instruction a word is under a map, or its unrecognised opcode (R47, R53). Total on all 2^32 words (R54). -/
def decode (m : OpMap) (w : Word) : Except DecodeError Instr :=
  match m.lookup (wordOpcode w) with
  | some o => .ok (Instr.make o (wordFields w))
  | none => .error (.unrecognised (wordOpcode w))

/-- `{u, opcode, dst, src0, src1, imm16}` (R45). -/
def encodeFields (c : Code) (f : Fields) : Word :=
  f.unused ++ c ++ f.dst ++ f.src0 ++ f.src1 ++ f.imm16

/-- The word of an instruction under a map (R45, R56). -/
def encode (m : OpMap) (i : Instr) : Word := encodeFields (m.code i.op) i.fields

/-- The host's `nbits` low bits as a word of memory: one 32-bit word, bits above `nbits` zero. -/
def tableWord (nbits w : Nat) : Word := BitVec.ofNat 32 (w % 2 ^ nbits)

/-- The instruction the decoder reads from an instruction whose bits are `w`, under the default map. -/
def decodeTableWord (nbits w : Nat) : Option Instr :=
  match decode OpMap.standard (tableWord nbits w) with
  | .ok i => some i
  | .error _ => none

end Sys2Proof
end

