-- ==== Sys2Proof/Machine/Params.lean ====
section
/-!
DEFINITION. The defaults of the open parameters (spec/00_scope.md R7) and the counting of cycles under CYCW.
-/

namespace Sys2Proof

/-- The default of every open parameter of R7. -/
def Config.standard : Config where
  opMap := OpMap.standard
  rshiftFill := .zero
  shiftOor := .zero
  cmpSigned := true
  dataAddrOor := .truncate
  memFill := 0
  cycw := none
  traceIndexBase := 0

/-- `k` more counts of a counter of CYCW bits (spec/10_state.md R20, spec/00_scope.md R7). -/
def Config.addCycles (c : Config) (n k : Nat) : Nat :=
  match c.cycw with
  | none => n + k
  | some w => (n + k) % 2 ^ w

end Sys2Proof
end

