-- ==== Sys2Proof/Machine/State.lean ====
section
/-!
DEFINITION. The state of the archlab2 core (spec/10_state.md), plain data, and the state after reset (R29).
-/

namespace Sys2Proof.Machine

/-- The seven control states (spec/10_state.md R21, spec/40_sequencer.md R73). -/
inductive ControlState where
  | idle
  | fetch0
  | fetch1
  | decode0
  | decode1
  | execute0
  | execute1
deriving DecidableEq, Repr

/-- ProcessorState, the architectural register snapshot (spec/10_state.md R10). -/
structure Snapshot where
  /-- The cells x[0]..x[7] (R11). -/
  regs : Vector Word 8
  /-- The program counter, a word address (R16). -/
  pc : Addr
  /-- The last fetched instruction word (R17). -/
  inst : Word
  /-- The decoded fields (R18). -/
  opcode : Code
  dst : RegIx
  src0 : RegIx
  src1 : RegIx
  immediate : Word
  /-- The staging registers (R19). -/
  alu0 : Word
  alu1 : Word
  aluout : Word
  /-- The count of steps since reset (R20). -/
  cycleCounter : Nat
  /-- The position in the sequencer (R21). -/
  controlState : ControlState
deriving DecidableEq, Repr

/-- One snapshot with every field zero (R29). -/
def Snapshot.zero : Snapshot where
  regs := Vector.replicate 8 0
  pc := 0
  inst := 0
  opcode := 0
  dst := 0
  src0 := 0
  src1 := 0
  immediate := 0
  alu0 := 0
  alu1 := 0
  aluout := 0
  cycleCounter := 0
  controlState := .idle

/-- The words of memory that differ from MEM_FILL, as (address, word) pairs in ascending order of address. The unit
is the 32-bit word: nothing in this hardware addresses a byte (spec/20_memory.md R30, R38; log entry 12). -/
abbrev Memory := List (Nat × Word)

/-- The canonical form: addresses strictly rising and inside the 65 536 words, no entry equal to what an unlisted
address reads as. -/
abbrev Memory.wf (fill : Word) (m : Memory) : Prop :=
  m.Pairwise (fun c d => c.1 < d.1) ∧ ∀ c ∈ m, c.1 < memWords ∧ c.2 ≠ fill

/-- What the effect summary of a trace record says, chosen by opcode (spec/60_exceptions.md R120). The text is not
the core's (log entry 16). -/
inductive EffectSummary where
  /-- `R[d] = a OP b` -/
  | assign (dst : RegIx) (a : Word) (op : Op) (b : Word)
  /-- `R[d] = MEM[addr]` -/
  | load (dst : RegIx) (addr : Word)
  /-- `MEM[addr] = R[s]` -/
  | store (addr : Word) (src : RegIx)
  /-- A branch-family instruction, taken or not. -/
  | branch (op : Op) (taken : Bool) (target : Word)
  /-- `HALT at PC` -/
  | halt (pc : Addr)
  /-- An unrecognised opcode. -/
  | unrecognised (opcode : Code)
deriving DecidableEq, Repr

/-- The trace record, one per retired instruction (R120). -/
structure TraceRecord where
  /-- The retired-instruction counter. -/
  index : Nat
  /-- The address of the instruction. -/
  pc : Addr
  /-- The raw instruction word, all 32 bits. -/
  inst : Word
  opcode : Code
  dst : RegIx
  src0 : RegIx
  src1 : RegIx
  immediate : Word
  /-- The post-execution register file: the raw cells of `nxt`. -/
  regs : Vector Word 8
  effect : EffectSummary
deriving DecidableEq, Repr

/-- The events the core emits (R119). -/
inductive Event where
  /-- One trace record (R120). -/
  | trace (r : TraceRecord)
  /-- The completion dump: the whole memory, unlisted words reading `fill` (R121). -/
  | dump (fill : Word) (mem : Memory)
  /-- The signal to the substrate to stop the run (R122). -/
  | stop
deriving DecidableEq, Repr

/-- Reasons for a fault. There are none: the hardware raises no exception and no instruction can fault
(spec/60_exceptions.md R110). -/
inductive Fault where
deriving DecidableEq, Repr

/-- Reasons for a refusal. -/
inductive Refusal where
  /-- An arm of `exec` whose instruction has no meaning yet. No arm answers it. Safe. -/
  | notModelled (mnemonic : String)
  /-- A load or store whose address has any of bits 31:16 set, under DATA_ADDR_OOR = refuse, which gives the access no
  meaning (spec/20_memory.md R32). Raised by `execLd`, `execSt`, `tickExecute0`, `tickExecute1`. Safe. -/
  | dataAddressOutOfRange (address : Word)
deriving DecidableEq, Repr

/-- The machine: the snapshot pair, the state beside it, the memory, the events emitted so far, the parameters. -/
structure State where
  /-- The open parameters; no step writes them (spec/00_scope.md R7; log entry 3). -/
  cfg : Config
  /-- The current snapshot, the only one a step reads (R10, R63). -/
  cur : Snapshot
  /-- The next snapshot, the only one a step writes; equal to `cur` after every commit (R10, R63). -/
  nxt : Snapshot
  /-- The one memory (R26, R30). -/
  mem : Memory
  /-- The start flag (R22). -/
  start : Bool
  /-- The branch-taken flag (R23). -/
  branchTaken : Bool
  /-- The memory read-result latch (R24). -/
  readLatch : Word
  /-- The retired-instruction counter (R25). -/
  retired : Nat
  /-- The events emitted so far, oldest first (R119); the model's own record of outputs (log entry 16). -/
  events : List Event
deriving DecidableEq, Repr

/-- The machine right after reset, under the default parameters, with no image loaded (R29, R126, R130). The latch,
which the spec leaves unspecified, is 0 (log entry 13). -/
def State.reset : State where
  cfg := Config.standard
  cur := Snapshot.zero
  nxt := Snapshot.zero
  mem := []
  start := false
  branchTaken := false
  readLatch := 0
  retired := Config.standard.traceIndexBase
  events := []

end Sys2Proof.Machine
end

