-- ==== Sys2Proof/Machine/Ops.lean ====
section
/-!
DEFINITION. The named operations over memory, registers, snapshots and events. There is no operation that takes an
exception or returns from one: the hardware has no trap entry and no trap return (spec/60_exceptions.md R110 to R114).
-/

namespace Sys2Proof.Machine

/-! Memory (spec/20_memory.md). -/

/-- The word at an address; an unlisted address reads MEM_FILL (spec/70_reset_and_hazards.md R130). -/
def Memory.read (fill : Word) : Memory → Nat → Word
  | [], _ => fill
  | (k, v) :: m, a => if k = a then v else Memory.read fill m a

/-- The memory with an address no longer listed. -/
def Memory.erase (m : Memory) (a : Nat) : Memory := m.filter fun c => c.1 != a

/-- An entry put before the first entry of a greater address. -/
def Memory.insert (m : Memory) (a : Nat) (v : Word) : Memory :=
  match m with
  | [] => [(a, v)]
  | c :: m' => if a < c.1 then (a, v) :: c :: m' else c :: Memory.insert m' a v

/-- The memory with one word written; keeps the canonical form (spec/20_memory.md R34, R40). -/
def Memory.write (fill : Word) (m : Memory) (a : Nat) (v : Word) : Memory :=
  if v = fill then m.erase a else (m.erase a).insert a v

/-- `M[a]` (spec/20_memory.md R30). -/
def State.readWord (s : State) (a : Addr) : Word := s.mem.read s.cfg.memFill a.toNat

/-- `M[a] <- v`, done at once (spec/20_memory.md R34, R36, R42). -/
def State.writeWord (s : State) (a : Addr) (v : Word) : State :=
  { s with mem := s.mem.write s.cfg.memFill a.toNat v }

/-- `IssueRead(a)`: the latch holds the word from the next step on (spec/20_memory.md R33, R35). -/
def State.issueRead (s : State) (a : Addr) : State := { s with readLatch := s.readWord a }

/-- `IssueWrite(a, v)`: complete before any read issued in a later step (spec/20_memory.md R34). -/
def State.issueWrite (s : State) (a : Addr) (v : Word) : State := s.writeWord a v

/-- `ReadResult()` (spec/20_memory.md R35). -/
def State.readResult (s : State) : Word := s.readLatch

/-! Register cells (spec/10_state.md R11). -/

/-- The cell `x[i]`, with no aliasing. -/
def cell (r : Vector Word 8) (i : RegIx) : Word := r[i.toNat]'i.isLt

/-- The cells with `x[i]` written; every index is written alike, 0 and 1 included (R12, R13). -/
def setCell (r : Vector Word 8) (i : RegIx) (v : Word) : Vector Word 8 := r.set i.toNat v i.isLt

/-- The link register's index (R14). -/
def linkIx : RegIx := 7

/-! Snapshots. -/

/-- `nxt <- n` and then the commit `cur <- nxt` at the end of the tick (spec/40_sequencer.md R63). -/
def State.commit (s : State) (n : Snapshot) : State := { s with cur := n, nxt := n }

/-- What `nxt` holds at the start of a step but for the cycle counter, which every step counts (R63, R76). -/
def State.counted (s : State) : Snapshot :=
  { s.cur with cycleCounter := s.cfg.addCycles s.cur.cycleCounter 1 }

/-- A snapshot with its cells written. -/
def Snapshot.setRegs (c : Snapshot) (r : Vector Word 8) : Snapshot := { c with regs := r }

/-- A snapshot with its program counter written. -/
def Snapshot.setPc (c : Snapshot) (p : Addr) : Snapshot := { c with pc := p }

/-- A snapshot with its ALU result written. -/
def Snapshot.setAluout (c : Snapshot) (v : Word) : Snapshot := { c with aluout := v }

/-- The state with its branch-taken flag written (spec/10_state.md R23). -/
def State.setFlag (s : State) (b : Bool) : State := { s with branchTaken := b }

/-- The five writes of the Instruction Decoder (spec/30_encoding.md R47). -/
def Snapshot.decodeFrom (c : Snapshot) (w : Word) : Snapshot :=
  { c with
    opcode := wordOpcode w
    dst := wordDst w
    src0 := wordSrc0 w
    src1 := wordSrc1 w
    immediate := immediateOf (wordImm16 w) }

/-- The name of the decoded opcode, if it has one. -/
def State.op (s : State) : Option Op := s.cfg.opMap.lookup s.cur.opcode

/-! Program counter (spec/10_state.md R16). -/

/-- `pc + 1` modulo 2^16 (R16, R72). -/
def nextPc (pc : Addr) : Addr := pc + 1

/-- The 16 bits of the immediate that reach `pc` (R72; spec/43_branch_jump.md R95). -/
def targetOf (imm : Word) : Addr := imm.extractLsb' 0 16

/-- The link value, `zext_32(pc)` (R72; spec/43_branch_jump.md R102). -/
def linkOf (pc : Addr) : Word := pc.zeroExtend 32

/-! Data addresses (spec/20_memory.md R32; spec/42_load_store.md R92). -/

/-- The word address of a 32-bit operand, or none where DATA_ADDR_OOR = refuse gives the access no meaning. -/
def dataAddress (c : Config) (v : Word) : Option Addr :=
  match c.dataAddrOor with
  | .truncate => some (v.extractLsb' 0 16)
  | .refuse => if v.extractLsb' 16 16 = 0 then some (v.extractLsb' 0 16) else none

/-! Events (spec/60_exceptions.md R119 to R122). -/

/-- `emit e`. -/
def State.emit (s : State) (e : Event) : State := { s with events := s.events ++ [e] }

/-- The effect summary of an instruction from its name and its snapshot in EXECUTE1 (R120; log entry 16). -/
def effectOf (o : Option Op) (c : Snapshot) : EffectSummary :=
  match o with
  | some .add | some .sub | some .lsf | some .rsf | some .and | some .or | some .xor | some .lhi =>
    .assign c.dst c.alu0 (o.getD .add) c.alu1
  | some .ld => .load c.dst c.alu1
  | some .st => .store c.alu1 c.src0
  | some .jlt | some .jle | some .jeq | some .jne | some .jin =>
    .branch (o.getD .jin) (c.aluout == 1) c.immediate
  | some .hlt => .halt c.pc
  | none => .unrecognised c.opcode

/-- The trace record of EXECUTE1: `c` is `cur` there and `regs` the cells of `nxt` (R120). -/
def traceRecord (index : Nat) (o : Option Op) (c : Snapshot) (regs : Vector Word 8) : TraceRecord where
  index := index
  pc := c.pc
  inst := c.inst
  opcode := c.opcode
  dst := c.dst
  src0 := c.src0
  src1 := c.src1
  immediate := c.immediate
  regs := regs
  effect := effectOf o c

/-- Emit the trace record of a completed instruction and count it (R120; spec/10_state.md R25). -/
def State.emitTrace (s : State) (o : Option Op) (c : Snapshot) (regs : Vector Word 8) : State :=
  { s.emit (.trace (traceRecord s.retired o c regs)) with retired := s.retired + 1 }

/-- What HLT does beside the snapshot: `start <- 0`, `Dump`, `Stop` (spec/44_halt_and_undefined.md R105). -/
def State.haltEvents (s : State) : State :=
  ({ s with start := false }.emit (.dump s.cfg.memFill s.mem)).emit .stop

end Sys2Proof.Machine
end

