-- ==== Sys2Proof/Machine/Operands.lean ====
section
/-!
DEFINITION. The Operand Selector (spec/40_sequencer.md R60 to R62).
-/

namespace Sys2Proof.Machine

/-- `opnd(i)`: index 0 reads 0, index 1 the immediate, any other index its cell (R60). -/
def opnd (r : Vector Word 8) (imm : Word) (i : RegIx) : Word :=
  if i = 0 then 0 else if i = 1 then imm else cell r i

/-- The two operands DECODE1 selects: LHI takes its destination register and the immediate (R61), every other opcode,
recognised or not, its two sources (R68). -/
def selectOperands (o : Option Op) (r : Vector Word 8) (imm : Word) (dst src0 src1 : RegIx) : Word × Word :=
  match o with
  | some .lhi => (opnd r imm dst, imm)
  | some .add | some .sub | some .lsf | some .rsf | some .and | some .or | some .xor | some .ld | some .st
  | some .jlt | some .jle | some .jeq | some .jne | some .jin | some .hlt | none =>
    (opnd r imm src0, opnd r imm src1)

end Sys2Proof.Machine
end

