-- ==== Sys2Proof/Machine/Flags.lean ====
section
/-!
DEFINITION. The comparisons of the branch family and the one flag of the hardware, the branch-taken flag
(spec/10_state.md R23). There are no condition codes: no carry, overflow, zero or sign flag exists.
-/

namespace Sys2Proof.Machine

/-- Less-than under CMP_SIGNED (spec/43_branch_jump.md R96, R104). -/
def lessThan (c : Config) (a b : Word) : Bool := if c.cmpSigned then a.slt b else a.ult b

/-- Less-or-equal under CMP_SIGNED (R97, R104). -/
def lessOrEqual (c : Config) (a b : Word) : Bool := if c.cmpSigned then a.sle b else a.ule b

/-- A relation as the 32-bit result 1 or 0 (R95). -/
def relationResult (holds : Bool) : Word := if holds then 1 else 0

/-- The branch family: the instructions whose EXECUTE1 may write `pc` and `x[7]` (spec/40_sequencer.md R72). -/
def isBranch : Option Op → Bool
  | some .jlt | some .jle | some .jeq | some .jne | some .jin => true
  | some .add | some .sub | some .lsf | some .rsf | some .and | some .or | some .xor | some .lhi
  | some .ld | some .st | some .hlt | none => false

/-- Whether EXECUTE1 sets the branch-taken flag: a branch-family opcode and the whole of `aluout` equal to 1 (R72). -/
def branchTakenNow (o : Option Op) (aluout : Word) : Bool := isBranch o && aluout == 1

end Sys2Proof.Machine
end

