-- ==== Sys2Proof/Machine/Alu.lean ====
section
/-!
DEFINITION. The Arithmetic/Logic Unit as a pure function (spec/40_sequencer.md R78, spec/41_arithmetic_logic.md,
spec/43_branch_jump.md).
-/

namespace Sys2Proof.Machine

/-- ADD: the sum modulo 2^32 (R80). -/
def aluAdd (a b : Word) : Word := a + b

/-- SUB: the difference modulo 2^32 (R81). -/
def aluSub (a b : Word) : Word := a - b

/-- A right shift by an amount under 32, under RSHIFT_FILL (R82). -/
def shiftRightBy (c : Config) (a : Word) (n : Nat) : Word :=
  match c.rshiftFill with
  | .zero => a >>> n
  | .sign => a.sshiftRight n

/-- The mathematical right shift by 32 or more: zeros, or 32 copies of bit 31 where the fill is the sign (R82). -/
def shiftRightAll (c : Config) (a : Word) : Word :=
  match c.rshiftFill with
  | .zero => 0
  | .sign => if a.msb then BitVec.allOnes 32 else 0

/-- The shift LSF makes: to the RIGHT, by the whole of `b` (R82, R52). -/
def aluShiftRight (c : Config) (a b : Word) : Word :=
  if b.toNat < 32 then shiftRightBy c a b.toNat
  else match c.shiftOor with
    | .zero => shiftRightAll c a
    | .mod32 => shiftRightBy c a (b.toNat % 32)
    | .arbitrary => Config.arbitraryShiftRight a b

/-- The shift RSF makes: to the LEFT, by the whole of `b` (R83, R52). -/
def aluShiftLeft (c : Config) (a b : Word) : Word :=
  if b.toNat < 32 then a <<< b.toNat
  else match c.shiftOor with
    | .zero => 0
    | .mod32 => a <<< (b.toNat % 32)
    | .arbitrary => Config.arbitraryShiftLeft a b

/-- AND, bit by bit (R84). -/
def aluAnd (a b : Word) : Word := a &&& b

/-- OR, bit by bit (R85). -/
def aluOr (a b : Word) : Word := a ||| b

/-- XOR, bit by bit (R86). -/
def aluXor (a b : Word) : Word := a ^^^ b

/-- LHI: the low half of `a` under the low half of `b` moved up by 16 (R87). -/
def aluLhi (a b : Word) : Word := (a &&& 0x0000FFFF) ||| (b <<< 16)

/-- JLT (R96). -/
def aluJlt (c : Config) (a b : Word) : Word := relationResult (lessThan c a b)

/-- JLE (R97). -/
def aluJle (c : Config) (a b : Word) : Word := relationResult (lessOrEqual c a b)

/-- JEQ: all 32 bits equal (R98). -/
def aluJeq (a b : Word) : Word := relationResult (a == b)

/-- JNE: any of the 32 bits differs (R99). -/
def aluJne (a b : Word) : Word := relationResult (a != b)

/-- JIN: always 1 (R100). -/
def aluJin : Word := 1

/-- `alu(opcode, a, b)`; none for load, store, halt and an unrecognised opcode (R78). -/
def alu (c : Config) (o : Option Op) (a b : Word) : Option Word :=
  match o with
  | some .add => some (aluAdd a b)
  | some .sub => some (aluSub a b)
  | some .lsf => some (aluShiftRight c a b)
  | some .rsf => some (aluShiftLeft c a b)
  | some .and => some (aluAnd a b)
  | some .or => some (aluOr a b)
  | some .xor => some (aluXor a b)
  | some .lhi => some (aluLhi a b)
  | some .jlt => some (aluJlt c a b)
  | some .jle => some (aluJle c a b)
  | some .jeq => some (aluJeq a b)
  | some .jne => some (aluJne a b)
  | some .jin => some aluJin
  | some .ld | some .st | some .hlt | none => none

end Sys2Proof.Machine
end

