-- ==== Sys2Proof/Machine/Window.lean ====
section
/-!
DEFINITION. What every instruction window shares at instruction level (spec/40_sequencer.md R74): its opening, which is
the same for every word, and its retirement. The families' meanings are written over these.
-/

namespace Sys2Proof.Machine

/-- The operand an instruction's own fields give for a register index (R60), read before any write of the window (R62). -/
def State.operand (s : State) (f : Fields) (i : RegIx) : Word := opnd s.cur.regs (immediateOf f.imm16) i

/-- The snapshot in EXECUTE1 but for `aluout` and the counts: `inst`, the decoded fields, `alu0` and `alu1` (R74). -/
def Snapshot.staged (c : Snapshot) (w a b : Word) : Snapshot :=
  { c.decodeFrom w with inst := w, alu0 := a, alu1 := b }

/-- What the window of the word `w` has done beside the snapshot before EXECUTE0: the branch-taken flag is cleared and
the latch holds the fetched word (R65). -/
def State.opened (s : State) (w : Word) : State := { s with branchTaken := false, readLatch := w }

/-- The end of a window: `c` is `cur` in EXECUTE1, `n` what EXECUTE1 makes of it; the trace record is emitted, six cycles
are counted and the control state is `st` (R70, R74). -/
def State.retire (s : State) (o : Option Op) (c n : Snapshot) (st : ControlState) : State :=
  (s.emitTrace o c n.regs).commit
    { n with controlState := st, cycleCounter := s.cfg.addCycles c.cycleCounter 6 }

/-- The window of an instruction whose EXECUTE1 writes `aluout` into `x[dst]` (spec/41_arithmetic_logic.md R88). -/
def State.aluWindow (s : State) (o : Op) (f : Fields) (a b result : Word) :
    Host.Outcome State Fault Refusal :=
  let w := encodeFields (s.cfg.opMap.code o) f
  let c := (s.cur.staged w a b).setAluout result
  .next ((s.opened w).retire (some o) c
    ((c.setRegs (setCell c.regs f.dst result)).setPc (nextPc c.pc)) .fetch0)

/-- The window of a branch-family instruction (spec/43_branch_jump.md R95). -/
def State.branchWindow (s : State) (o : Op) (f : Fields) (result : Word) :
    Host.Outcome State Fault Refusal :=
  let w := encodeFields (s.cfg.opMap.code o) f
  let c := (s.cur.staged w (s.operand f f.src0) (s.operand f f.src1)).setAluout result
  if result = 1 then
    .next (((s.opened w).setFlag true).retire (some o) c
      ((c.setRegs (setCell c.regs linkIx (linkOf c.pc))).setPc (targetOf c.immediate)) .fetch0)
  else
    .next ((s.opened w).retire (some o) c (c.setPc (nextPc c.pc)) .fetch0)

end Sys2Proof.Machine
end

