-- ==== Sys2Proof/Machine/ArithmeticLogic.lean ====
section
/-!
DEFINITION. The arithmetic, shift, logical and load-high-immediate instructions (spec/41_arithmetic_logic.md). Each is the
projection of its six steps (R74, R88); none raises an exception or writes a flag but the cleared branch-taken flag.
-/

namespace Sys2Proof.Machine

/-- ADD (R80). -/
def execAdd (f : Fields) (s : State) : Host.Outcome State Fault Refusal :=
  let a := s.operand f f.src0
  let b := s.operand f f.src1
  s.aluWindow .add f a b (aluAdd a b)

/-- SUB (R81). -/
def execSub (f : Fields) (s : State) : Host.Outcome State Fault Refusal :=
  let a := s.operand f f.src0
  let b := s.operand f f.src1
  s.aluWindow .sub f a b (aluSub a b)

/-- LSF, which shifts RIGHT (R82, R52). -/
def execLsf (f : Fields) (s : State) : Host.Outcome State Fault Refusal :=
  let a := s.operand f f.src0
  let b := s.operand f f.src1
  s.aluWindow .lsf f a b (aluShiftRight s.cfg a b)

/-- RSF, which shifts LEFT (R83, R52). -/
def execRsf (f : Fields) (s : State) : Host.Outcome State Fault Refusal :=
  let a := s.operand f f.src0
  let b := s.operand f f.src1
  s.aluWindow .rsf f a b (aluShiftLeft s.cfg a b)

/-- AND (R84). -/
def execAnd (f : Fields) (s : State) : Host.Outcome State Fault Refusal :=
  let a := s.operand f f.src0
  let b := s.operand f f.src1
  s.aluWindow .and f a b (aluAnd a b)

/-- OR (R85). -/
def execOr (f : Fields) (s : State) : Host.Outcome State Fault Refusal :=
  let a := s.operand f f.src0
  let b := s.operand f f.src1
  s.aluWindow .or f a b (aluOr a b)

/-- XOR (R86). -/
def execXor (f : Fields) (s : State) : Host.Outcome State Fault Refusal :=
  let a := s.operand f f.src0
  let b := s.operand f f.src1
  s.aluWindow .xor f a b (aluXor a b)

/-- LHI: reads its destination register through `opnd`, and the immediate (R87, R61). -/
def execLhi (f : Fields) (s : State) : Host.Outcome State Fault Refusal :=
  let a := s.operand f f.dst
  let b := immediateOf f.imm16
  s.aluWindow .lhi f a b (aluLhi a b)

end Sys2Proof.Machine
end

