-- ==== Sys2Proof/Machine/BranchJump.lean ====
section
/-!
DEFINITION. The compare-and-branch instructions and the jump-and-link (spec/43_branch_jump.md). The target is the
immediate; the link value is the instruction's own address, in `x[7]`, only when taken; `dst` is not written (R95).
-/

namespace Sys2Proof.Machine

/-- JLT (R96). -/
def execJlt (f : Fields) (s : State) : Host.Outcome State Fault Refusal :=
  s.branchWindow .jlt f (aluJlt s.cfg (s.operand f f.src0) (s.operand f f.src1))

/-- JLE (R97). -/
def execJle (f : Fields) (s : State) : Host.Outcome State Fault Refusal :=
  s.branchWindow .jle f (aluJle s.cfg (s.operand f f.src0) (s.operand f f.src1))

/-- JEQ (R98). -/
def execJeq (f : Fields) (s : State) : Host.Outcome State Fault Refusal :=
  s.branchWindow .jeq f (aluJeq (s.operand f f.src0) (s.operand f f.src1))

/-- JNE (R99). -/
def execJne (f : Fields) (s : State) : Host.Outcome State Fault Refusal :=
  s.branchWindow .jne f (aluJne (s.operand f f.src0) (s.operand f f.src1))

/-- JIN: always taken; the target is the immediate, not a register (R100, R101). -/
def execJin (f : Fields) (s : State) : Host.Outcome State Fault Refusal :=
  s.branchWindow .jin f aluJin

end Sys2Proof.Machine
end

