-- ==== Sys2Proof/Machine/Halt.lean ====
section
/-!
DEFINITION. The halt and the execution of an unrecognised opcode (spec/44_halt_and_undefined.md).
-/

namespace Sys2Proof.Machine

/-- HLT: every field but the opcode is ignored; `pc` still increments; the machine goes to IDLE (R105). -/
def execHlt (f : Fields) (s : State) : Host.Outcome State Fault Refusal :=
  let w := encodeFields (s.cfg.opMap.code .hlt) f
  let c := s.cur.staged w (s.operand f f.src0) (s.operand f f.src1)
  .next ((s.opened w).haltEvents.retire (some .hlt) c (c.setPc (nextPc c.pc)) .idle)

/-- The window of a word whose opcode names no instruction: a no-operation but for `pc + 1`; the decoded fields, `alu0`
and `alu1` are written and a trace record is emitted as for every word (R106). -/
def execUnrecognised (w : Word) (s : State) : Host.Outcome State Fault Refusal :=
  let f := wordFields w
  let c := s.cur.staged w (s.operand f f.src0) (s.operand f f.src1)
  .next ((s.opened w).retire none c (c.setPc (nextPc c.pc)) .fetch0)

end Sys2Proof.Machine
end

