-- ==== Sys2Proof/Machine/LoadStore.lean ====
section
/-!
DEFINITION. The load and the store (spec/42_load_store.md): the effective address is the second operand, cut to 16 bits
(R92). Neither writes `aluout`.
-/

namespace Sys2Proof.Machine

/-- LD (R90). -/
def execLd (f : Fields) (s : State) : Host.Outcome State Fault Refusal :=
  let w := encodeFields (s.cfg.opMap.code .ld) f
  let b := s.operand f f.src1
  let c := s.cur.staged w (s.operand f f.src0) b
  match dataAddress s.cfg b with
  | none => .refused (.dataAddressOutOfRange b)
  | some ea =>
    .next (((s.opened w).issueRead ea).retire (some .ld) c
      ((c.setRegs (setCell c.regs f.dst (s.readWord ea))).setPc (nextPc c.pc)) .fetch0)

/-- ST (R91). -/
def execSt (f : Fields) (s : State) : Host.Outcome State Fault Refusal :=
  let w := encodeFields (s.cfg.opMap.code .st) f
  let a := s.operand f f.src0
  let b := s.operand f f.src1
  let c := s.cur.staged w a b
  match dataAddress s.cfg b with
  | none => .refused (.dataAddressOutOfRange b)
  | some ea =>
    .next (((s.opened w).issueWrite ea a).retire (some .st) c (c.setPc (nextPc c.pc)) .fetch0)

end Sys2Proof.Machine
end

