-- ==== Sys2Proof/Machine/Dispatch.lean ====
section
/-!
DEFINITION. The meaning of every instruction: one arm per constructor of `Instr`, each the effect of the instruction's
whole six-step window (spec/40_sequencer.md R74).
-/

namespace Sys2Proof.Machine

def exec (i : Instr) (s : State) : Host.Outcome State Fault Refusal :=
  match i with
  | .add f => Sys2Proof.Machine.execAdd f s
  | .sub f => Sys2Proof.Machine.execSub f s
  | .lsf f => Sys2Proof.Machine.execLsf f s
  | .rsf f => Sys2Proof.Machine.execRsf f s
  | .and f => Sys2Proof.Machine.execAnd f s
  | .or f => Sys2Proof.Machine.execOr f s
  | .xor f => Sys2Proof.Machine.execXor f s
  | .lhi f => Sys2Proof.Machine.execLhi f s
  | .ld f => Sys2Proof.Machine.execLd f s
  | .st f => Sys2Proof.Machine.execSt f s
  | .jlt f => Sys2Proof.Machine.execJlt f s
  | .jle f => Sys2Proof.Machine.execJle f s
  | .jeq f => Sys2Proof.Machine.execJeq f s
  | .jne f => Sys2Proof.Machine.execJne f s
  | .jin f => Sys2Proof.Machine.execJin f s
  | .hlt f => Sys2Proof.Machine.execHlt f s

end Sys2Proof.Machine
end

