-- ==== Sys2Proof/Machine/Sequencer.lean ====
section
/-!
DEFINITION. The Control State Machine, one clock tick at a time (spec/40_sequencer.md R63 to R73, R76). Every right-hand
side reads `cur` (and the start flag, the latch and the branch-taken flag where a rule says so); every snapshot write goes
to `nxt`, which the tick then commits. `nxt` is never read.
-/

namespace Sys2Proof.Machine

/-- IDLE (R64). -/
def tickIdle (s : State) : State :=
  s.commit { s.counted with pc := 0, controlState := if s.start then .fetch0 else .idle }

/-- FETCH0 (R65). -/
def tickFetch0 (s : State) : State :=
  ((s.setFlag false).issueRead s.cur.pc).commit { s.counted with controlState := .fetch1 }

/-- FETCH1 (R66). -/
def tickFetch1 (s : State) : State :=
  s.commit { s.counted with inst := s.readResult, controlState := .decode0 }

/-- DECODE0 (R67). -/
def tickDecode0 (s : State) : State :=
  s.commit { s.counted.decodeFrom s.cur.inst with controlState := .decode1 }

/-- DECODE1 (R68). -/
def tickDecode1 (s : State) : State :=
  let ab := selectOperands s.op s.cur.regs s.cur.immediate s.cur.dst s.cur.src0 s.cur.src1
  s.commit { s.counted with alu0 := ab.1, alu1 := ab.2, controlState := .execute0 }

/-- EXECUTE0 (R69): the ALU, or the load's read. -/
def tickExecute0 (s : State) : Host.Outcome State Fault Refusal :=
  let n := { s.counted with
    aluout := (alu s.cfg s.op s.cur.alu0 s.cur.alu1).getD s.cur.aluout
    controlState := .execute1 }
  match s.op with
  | some .ld =>
    match dataAddress s.cfg s.cur.alu1 with
    | none => .refused (.dataAddressOutOfRange s.cur.alu1)
    | some ea => .next ((s.issueRead ea).commit n)
  | some .add | some .sub | some .lsf | some .rsf | some .and | some .or | some .xor | some .lhi | some .st
  | some .jlt | some .jle | some .jeq | some .jne | some .jin | some .hlt | none => .next (s.commit n)

/-- The branch-taken flag as EXECUTE1 leaves it (R72). -/
def State.resolvedFlag (s : State) : Bool := s.branchTaken || branchTakenNow s.op s.cur.aluout

/-- The program counter EXECUTE1 writes (R72): a taken branch's target; else `pc + 1` where the flag is clear. -/
def State.resolvedPc (s : State) : Addr :=
  if branchTakenNow s.op s.cur.aluout then targetOf s.cur.immediate
  else if s.resolvedFlag then s.cur.pc
  else nextPc s.cur.pc

/-- The cells EXECUTE1 leaves (R71, R72). -/
def State.committedRegs (s : State) : Vector Word 8 :=
  match s.op with
  | some .add | some .sub | some .lsf | some .rsf | some .and | some .or | some .xor | some .lhi =>
    setCell s.cur.regs s.cur.dst s.cur.aluout
  | some .ld => setCell s.cur.regs s.cur.dst s.readResult
  | some .jlt | some .jle | some .jeq | some .jne | some .jin =>
    if s.cur.aluout = 1 then setCell s.cur.regs linkIx (linkOf s.cur.pc) else s.cur.regs
  | some .st | some .hlt | none => s.cur.regs

/-- The control state after EXECUTE1 (R70): IDLE after a halt, else FETCH0. -/
def afterExecute1 : Option Op → ControlState
  | some .hlt => .idle
  | some .add | some .sub | some .lsf | some .rsf | some .and | some .or | some .xor | some .lhi | some .ld | some .st
  | some .jlt | some .jle | some .jeq | some .jne | some .jin | none => .fetch0

/-- What EXECUTE1 does beside the snapshot and the flag before the trace record: the store's write (R71), the halt's
events (R105). -/
def State.committedEffects (s : State) : Host.Outcome State Fault Refusal :=
  match s.op with
  | some .st =>
    match dataAddress s.cfg s.cur.alu1 with
    | none => .refused (.dataAddressOutOfRange s.cur.alu1)
    | some ea => .next (s.issueWrite ea s.cur.alu0)
  | some .hlt => .next s.haltEvents
  | some .add | some .sub | some .lsf | some .rsf | some .and | some .or | some .xor | some .lhi | some .ld
  | some .jlt | some .jle | some .jeq | some .jne | some .jin | none => .next s

/-- EXECUTE1 (R70): the opcode's commit, the program-counter update, the trace record, the next state. -/
def tickExecute1 (s : State) : Host.Outcome State Fault Refusal :=
  match s.committedEffects with
  | .fault r => .fault r
  | .refused r => .refused r
  | .next t =>
    .next (((t.setFlag s.resolvedFlag).emitTrace s.op s.cur s.committedRegs).commit
      { s.counted with
        regs := s.committedRegs
        pc := s.resolvedPc
        controlState := afterExecute1 s.op })

/-- One clock tick, the reset signal not asserted (R63 to R73). -/
def tick (s : State) : Host.Outcome State Fault Refusal :=
  match s.cur.controlState with
  | .idle => .next (tickIdle s)
  | .fetch0 => .next (tickFetch0 s)
  | .fetch1 => .next (tickFetch1 s)
  | .decode0 => .next (tickDecode0 s)
  | .decode1 => .next (tickDecode1 s)
  | .execute0 => tickExecute0 s
  | .execute1 => tickExecute1 s

/-- `k` ticks, stopping at a refusal. -/
def ticks : Nat → State → Host.Outcome State Fault Refusal
  | 0, s => .next s
  | k + 1, s =>
    match tick s with
    | .next t => ticks k t
    | .fault r => .fault r
    | .refused r => .refused r

/-- The encoding of the control states in the table of R73 (the spec's decision D20; only IDLE = 0 is the source's). -/
def ControlState.code : ControlState → BitVec 3
  | .idle => 0
  | .fetch0 => 1
  | .fetch1 => 2
  | .decode0 => 3
  | .decode1 => 4
  | .execute0 => 5
  | .execute1 => 6

end Sys2Proof.Machine
end

