-- ==== Sys2Proof/Machine/HostOps.lean ====
section
/-!
DEFINITION. What the outside does to the core between ticks (spec/70_reset_and_hazards.md) and what it sees of it: the
reset signal, the start flag, the image, the launch state; the diagnostic record, the dump's lines and the ports
(spec/60_exceptions.md R121, R123; spec/40_sequencer.md R77).
-/

namespace Sys2Proof.Machine

/-- The effect of a tick at which the reset signal is asserted (R125, R126): both snapshots zero, the start flag 0, the
retired-instruction counter at its base, memory unchanged, no event. The latch is unspecified afterwards: `anyLatch`
stands for whatever word it holds. -/
def State.applyReset (s : State) (anyLatch : Word) : State :=
  { s with
    cur := Snapshot.zero
    nxt := Snapshot.zero
    start := false
    branchTaken := false
    readLatch := anyLatch
    retired := s.cfg.traceIndexBase }

/-- One clock tick with the reset signal at a level: reset wins over the step (R125). -/
def clock (resetSignal : Bool) (anyLatch : Word) (s : State) : Host.Outcome State Fault Refusal :=
  if resetSignal then .next (s.applyReset anyLatch) else tick s

/-- The host sets the start flag (R128). -/
def State.setStart (s : State) : State := { s with start := true }

/-- `inject(a, v)`: the loader sets a word at once (spec/20_memory.md R36). -/
def State.inject (s : State) (a : Addr) (v : Word) : State := s.writeWord a v

/-- Image words from address `a` on; words beyond the last address are dropped (R130). -/
def State.loadFrom (s : State) (a : Nat) : List Word → State
  | [] => s
  | w :: ws => if a < memWords then (s.inject (BitVec.ofNat 16 a) w).loadFrom (a + 1) ws else s

/-- The image placed in memory, word `i` at address `i` (R130; spec/30_encoding.md R59). -/
def State.loadImage (s : State) (image : List Word) : State := s.loadFrom 0 image

/-- The launch state of an image: reset, the image loaded, start asserted (R129). -/
def State.launch (image : List Word) : State := (State.reset.loadImage image).setStart

/-- The per-cycle diagnostic record: the whole of `cur` (spec/60_exceptions.md R123). -/
def State.diagnostic (s : State) : Snapshot := s.cur

/-- One line of the dump: the eight hexadecimal digits of word `a`, most significant first (R121). -/
def dumpLine (fill : Word) (m : Memory) (a : Nat) : List (BitVec 4) :=
  (List.range 8).map fun k => (m.read fill a).extractLsb' (28 - 4 * k) 4

/-- The dump: one line per word, in address order (R121). -/
def dumpLines (fill : Word) (m : Memory) : List (List (BitVec 4)) := (List.range memWords).map (dumpLine fill m)

/-- The operation the core issues on the memory interface in one step, the reset signal not asserted
(spec/20_memory.md R37). -/
inductive MemOp where
  | none
  | issueRead (a : Addr)
  | issueWrite (a : Addr) (v : Word)
deriving DecidableEq, Repr

/-- The table of R37. An access that DATA_ADDR_OOR = refuse gives no meaning is no operation. -/
def State.memOp (s : State) : MemOp :=
  match s.cur.controlState with
  | .fetch0 => .issueRead s.cur.pc
  | .execute0 =>
    if s.op = some .ld then
      match dataAddress s.cfg s.cur.alu1 with
      | some ea => .issueRead ea
      | none => .none
    else .none
  | .execute1 =>
    if s.op = some .st then
      match dataAddress s.cfg s.cur.alu1 with
      | some ea => .issueWrite ea s.cur.alu0
      | none => .none
    else .none
  | .idle | .fetch1 | .decode0 | .decode1 => .none

/-- The operation on the memory interface in one tick, by the level of the reset signal: at a tick with `reset` asserted
the core issues none (spec/70_reset_and_hazards.md R125). -/
def State.issuedOp (resetSignal : Bool) (s : State) : MemOp := if resetSignal then .none else s.memOp

/-- The outputs of the core in one tick, as ports (spec/40_sequencer.md R77). The address and data ports carry nothing
that is used while their enable is 0; they are options here so that no value is made up for them. -/
structure Ports where
  /-- `mem_ren` and `mem_raddr` -/
  memRead : Option Addr
  /-- `mem_wen`, `mem_waddr` and `mem_wdata` -/
  memWrite : Option (Addr × Word)
  /-- The record of the `trace` event -/
  trace : Option TraceRecord
  /-- The `dump` event -/
  dump : Bool
  /-- The `stop` event -/
  stop : Bool
  /-- `diag` -/
  diag : Snapshot
deriving DecidableEq, Repr

/-- Whether the tick of `s` completes an instruction: an EXECUTE1 with the reset signal not asserted (R120, R125). -/
def State.completing (resetSignal : Bool) (s : State) : Bool := !resetSignal && s.cur.controlState == .execute1

/-- Whether the tick of `s` completes a halt (spec/44_halt_and_undefined.md R105). -/
def State.halting (resetSignal : Bool) (s : State) : Bool := s.completing resetSignal && s.op == some .hlt

/-- The ports in the tick of `s`, by the level of the port `reset` (R77). With `reset` asserted no memory operation is
issued and no event raised (R125); `diag` shows `cur` in every tick (R123). -/
def ports (resetSignal : Bool) (s : State) : Ports where
  memRead := match s.issuedOp resetSignal with
    | .issueRead a => some a
    | .issueWrite _ _ | .none => none
  memWrite := match s.issuedOp resetSignal with
    | .issueWrite a v => some (a, v)
    | .issueRead _ | .none => none
  trace := if s.completing resetSignal then some (traceRecord s.retired s.op s.cur s.committedRegs) else none
  dump := s.halting resetSignal
  stop := s.halting resetSignal
  diag := s.diagnostic

end Sys2Proof.Machine
end

