-- ==== Sys2Proof/Machine/Fetch.lean ====
section
/-!
DEFINITION. Fetching and running the instruction at the program counter, one whole window (spec/40_sequencer.md R74), and
placing an instruction where it is fetched.
-/

namespace Sys2Proof.Machine

/-- The word at `pc` (spec/20_memory.md R31, spec/40_sequencer.md R65, R66). -/
def State.fetch (s : State) : Word := s.readWord s.cur.pc

/-- The window of the word at `pc`: the meaning of the instruction it is, or the no-operation of an unrecognised opcode
(spec/44_halt_and_undefined.md R106). -/
def runWindow (s : State) : Host.Outcome State Fault Refusal :=
  match decode s.cfg.opMap s.fetch with
  | .ok i => exec i s
  | .error _ => execUnrecognised s.fetch s

/-- The state with a word at `pc`, the control state FETCH0 and the start flag set, as it is during a run (R128). -/
def State.placeWord (s : State) (w : Word) : State :=
  let t := s.inject s.cur.pc w
  { t.commit { t.cur with controlState := .fetch0 } with start := true }

end Sys2Proof.Machine
end

