-- ==== Sys2Proof/Machine/Step.lean ====
section
/-!
DEFINITION. The step: in FETCH0 the whole window of the instruction at `pc`, in every other control state one tick
(log entry 1). What the six ticks do one by one is `tick` (Machine/Sequencer.lean).
-/

namespace Sys2Proof.Machine

/-- One step of the machine. -/
def step (s : State) : Host.Outcome State Fault Refusal :=
  match s.cur.controlState with
  | .fetch0 => runWindow s
  | .idle | .fetch1 | .decode0 | .decode1 | .execute0 | .execute1 => tick s

/-- The state with an instruction stored where `step` fetches its next instruction, ready to be fetched (log entry 2). -/
def State.withFetchWord (s : State) (nbits w : Nat) : State := s.placeWord (tableWord nbits w)

end Sys2Proof.Machine
end

