-- ==== Sys2Proof/Safety.lean ====
section
/-!
DEFINITION. The terms statements about the machine are said in: what a consistent state is, what two states share, what
a window records and leaves alone.
-/

namespace Sys2Proof.Machine

/-- An outcome with its next state changed, a fault or a refusal kept. -/
def mapNext (g : State → State) : Host.Outcome State Fault Refusal → Host.Outcome State Fault Refusal
  | .next t => .next (g t)
  | .fault r => .fault r
  | .refused r => .refused r

/-- Two outcomes are alike: both a next state, related by `R`, or both the same refusal. -/
def Alike (R : State → State → Prop) (o o' : Host.Outcome State Fault Refusal) : Prop :=
  (∃ t t', o = .next t ∧ o' = .next t' ∧ R t t') ∨ (∃ r, o = .refused r ∧ o' = .refused r)

/-- Two states agree on what a program can see and on the course of execution: the registers, `pc`, the memory, the start
flag, the branch-taken flag, the cycle counter, the control state, the number of retired instructions. -/
structure SameArchitecture (s t : State) : Prop where
  cfg : s.cfg = t.cfg
  regs : s.cur.regs = t.cur.regs
  pc : s.cur.pc = t.cur.pc
  mem : s.mem = t.mem
  start : s.start = t.start
  branchTaken : s.branchTaken = t.branchTaken
  cycleCounter : s.cur.cycleCounter = t.cur.cycleCounter
  controlState : s.cur.controlState = t.cur.controlState
  retired : s.retired = t.retired

/-- Two states agree on everything but the cells x[0] and x[1], which no instruction can read (spec/10_state.md R12,
R13), the next snapshot, which no step reads (spec/40_sequencer.md R63), and the events already emitted. -/
structure SameButCells01 (s t : State) : Prop where
  cfg : s.cfg = t.cfg
  cells : ∀ i : RegIx, i ≠ 0 → i ≠ 1 → cell s.cur.regs i = cell t.cur.regs i
  snapshot : { s.cur with regs := t.cur.regs } = t.cur
  mem : s.mem = t.mem
  start : s.start = t.start
  branchTaken : s.branchTaken = t.branchTaken
  readLatch : s.readLatch = t.readLatch
  retired : s.retired = t.retired

/-- Two events agree on everything but the cells x[0] and x[1] that a trace record shows (spec/60_exceptions.md R120). -/
inductive SameEventButCells01 : Event → Event → Prop where
  /-- Two trace records alike in every field but `regs`, and in every cell of `regs` but x[0] and x[1]. -/
  | trace (r r' : TraceRecord) (cells : ∀ i : RegIx, i ≠ 0 → i ≠ 1 → cell r.regs i = cell r'.regs i)
      (fields : { r with regs := r'.regs } = r') : SameEventButCells01 (.trace r) (.trace r')
  /-- The same dump. -/
  | dump (fill : Word) (m : Memory) : SameEventButCells01 (.dump fill m) (.dump fill m)
  /-- The stop. -/
  | stop : SameEventButCells01 .stop .stop

/-- Going from `s` to `t` and from `s'` to `t'` emits the same events, one by one, but for the cells x[0] and x[1] that
a trace record shows. -/
def SameNewEvents (s s' t t' : State) : Prop :=
  ∃ e e', t.events = s.events ++ e ∧ t'.events = s'.events ++ e' ∧ List.Forall₂ SameEventButCells01 e e'

/-- What holds of a state that a run can reach, control state by control state: each register of the sequencer holds what
the steps of its own window have put there (spec/10_state.md R17 to R19, R23, R24; spec/40_sequencer.md R74). -/
structure State.Consistent (s : State) : Prop where
  /-- The commit has been made (spec/40_sequencer.md R63). -/
  buffered : s.nxt = s.cur
  /-- The memory is in canonical form. -/
  memory : s.mem.wf s.cfg.memFill
  /-- The start flag stays set during a run (spec/70_reset_and_hazards.md R128). -/
  running : s.cur.controlState ≠ .idle → s.start = true
  /-- The branch-taken flag is clear from FETCH0's commit to EXECUTE1 (spec/10_state.md R23). -/
  flagClear : s.cur.controlState ∈ [.fetch1, .decode0, .decode1, .execute0, .execute1] → s.branchTaken = false
  /-- In FETCH1 the latch holds the word at `pc`. -/
  latched : s.cur.controlState = .fetch1 → s.readLatch = s.readWord s.cur.pc
  /-- From DECODE0 on `inst` is the word at `pc`. -/
  fetched : s.cur.controlState ∈ [.decode0, .decode1, .execute0, .execute1] → s.cur.inst = s.readWord s.cur.pc
  /-- From DECODE1 on the decoded fields are those of `inst`. -/
  decoded : s.cur.controlState ∈ [.decode1, .execute0, .execute1] → s.cur.decodeFrom s.cur.inst = s.cur
  /-- From EXECUTE0 on the staged operands are the operand selector's. -/
  selected : s.cur.controlState ∈ [.execute0, .execute1] →
    (s.cur.alu0, s.cur.alu1)
      = selectOperands s.op s.cur.regs s.cur.immediate s.cur.dst s.cur.src0 s.cur.src1
  /-- In EXECUTE1 `aluout` is the ALU's result where the opcode has one. -/
  computed : s.cur.controlState = .execute1 →
    ∀ r, alu s.cfg s.op s.cur.alu0 s.cur.alu1 = some r → s.cur.aluout = r
  /-- In the EXECUTE1 of a load the latch holds the word at the effective address. -/
  loaded : s.cur.controlState = .execute1 → s.op = some .ld →
    ∃ ea, dataAddress s.cfg s.cur.alu1 = some ea ∧ s.readLatch = s.readWord ea
  /-- A counter of CYCW bits stays in its width (spec/00_scope.md R7). -/
  counter : ∀ n, s.cfg.cycw = some n → s.cur.cycleCounter < 2 ^ n

/-- A trace record is the one of the window that led from `s` to `t` (spec/60_exceptions.md R120). -/
structure Traces (s t : State) (r : TraceRecord) : Prop where
  index : r.index = s.retired
  pc : r.pc = s.cur.pc
  inst : r.inst = t.cur.inst
  opcode : r.opcode = t.cur.opcode
  dst : r.dst = t.cur.dst
  src0 : r.src0 = t.cur.src0
  src1 : r.src1 = t.cur.src1
  immediate : r.immediate = t.cur.immediate
  regs : r.regs = t.cur.regs

/-- What the window of the word `w` writes and keeps whatever its opcode (spec/40_sequencer.md R74): `inst`, the decoded
fields, the counts; the parameters stay and the commit has been made. -/
structure WindowOf (w : Word) (s t : State) : Prop where
  cfg : t.cfg = s.cfg
  committed : t.nxt = t.cur
  inst : t.cur.inst = w
  opcode : t.cur.opcode = wordOpcode w
  dst : t.cur.dst = wordDst w
  src0 : t.cur.src0 = wordSrc0 w
  src1 : t.cur.src1 = wordSrc1 w
  immediate : t.cur.immediate = immediateOf (wordImm16 w)
  cycles : t.cur.cycleCounter = s.cfg.addCycles s.cur.cycleCounter 6
  retired : t.retired = s.retired + 1

/-- The operands a window stages are the values `a` and `b`. -/
def Stages (t : State) (a b : Word) : Prop := t.cur.alu0 = a ∧ t.cur.alu1 = b

/-- Every cell but the one named is as before. -/
def OtherCellsKept (i : RegIx) (s t : State) : Prop := ∀ j, j ≠ i → cell t.cur.regs j = cell s.cur.regs j

/-- Every word of memory reads as before. -/
def MemoryKept (s t : State) : Prop := ∀ a, t.readWord a = s.readWord a

/-- The window ends at the next instruction: FETCH0, the start flag as before, one trace record emitted and no other
event. -/
def GoesOn (s t : State) : Prop :=
  t.cur.controlState = .fetch0 ∧ t.start = s.start ∧ ∃ r, t.events = s.events ++ [.trace r] ∧ Traces s t r

/-- A window that writes one register and goes on to the next address: the destination holds `result`, which is also left
in `aluout`; nothing is stored, no branch is taken (spec/41_arithmetic_logic.md R88). -/
structure WritesResult (i : Instr) (s t : State) (result : Word) : Prop where
  window : WindowOf (encode s.cfg.opMap i) s t
  goesOn : GoesOn s t
  written : cell t.cur.regs i.fields.dst = result
  kept : OtherCellsKept i.fields.dst s t
  aluout : t.cur.aluout = result
  pc : t.cur.pc = s.cur.pc + 1
  memory : MemoryKept s t
  branchTaken : t.branchTaken = false
  readLatch : t.readLatch = encode s.cfg.opMap i

/-- A branch-family window that is taken exactly when `taken` holds (spec/43_branch_jump.md R95). -/
structure Branches (i : Instr) (s t : State) (taken : Prop) : Prop where
  window : WindowOf (encode s.cfg.opMap i) s t
  goesOn : GoesOn s t
  pcTaken : taken → t.cur.pc = i.fields.imm16
  pcNot : ¬ taken → t.cur.pc = s.cur.pc + 1
  linkTaken : taken → (cell t.cur.regs 7).toNat = s.cur.pc.toNat
  linkNot : ¬ taken → cell t.cur.regs 7 = cell s.cur.regs 7
  kept : OtherCellsKept 7 s t
  aluoutTaken : taken → t.cur.aluout = 1
  aluoutNot : ¬ taken → t.cur.aluout = 0
  flag : t.branchTaken = true ↔ taken
  memory : MemoryKept s t
  readLatch : t.readLatch = encode s.cfg.opMap i

end Sys2Proof.Machine
end

