-- ==== Sys2Proof/Certificates/Slice0/Obligations.lean ====
section
/-!
DEFINITION. The statements about the archlab2 core for the provers, by the rules of spec/.
-/

open Sys2Proof Sys2Proof.Machine

/-! Encoding and decoding. -/

/-- Words of spec/95_test_vectors.md section 2 and 3 decode, under the default map (log entry 4), to the instructions they
stand for. -/
def Obligations.SpecWordsDecode : Prop :=
  decode OpMap.standard 0x00810005 = .ok (.add ⟨0, 2, 0, 1, 5⟩)
    ∧ decode OpMap.standard 0xC0810005 = .ok (.add ⟨3, 2, 0, 1, 5⟩)
    ∧ decode OpMap.standard 0x0E9C8000 = .ok (.lhi ⟨0, 2, 3, 4, 0x8000⟩)
    ∧ decode OpMap.standard 0x11030000 = .ok (.ld ⟨0, 4, 0, 3, 0⟩)
    ∧ decode OpMap.standard 0x12310014 = .ok (.st ⟨0, 0, 6, 1, 0x14⟩)
    ∧ decode OpMap.standard 0x26100002 = .ok (.jne ⟨0, 0, 2, 0, 2⟩)
    ∧ decode OpMap.standard 0x3177BEEF = .ok (.hlt ⟨0, 5, 6, 7, 0xBEEF⟩)
    ∧ decode OpMap.standard 0x2A5B8001 = .error (.unrecognised 21)
    ∧ decode OpMap.standard 0xFFFFFFFF = .error (.unrecognised 31)

/-- Decode after encode gives the instruction back, for every map under which the instruction is well-formed and every
value of every field. -/
def Obligations.DecodeOfEncode : Prop :=
  ∀ (m : OpMap) (i : Instr), i.WellFormed m → decode m (encode m i) = .ok i

/-- Under a legal (injective) map every instruction is well-formed, and a word is an instruction's exactly when it encodes
it; a word is refused exactly when its opcode value is no instruction's number (R7, R47, R53). -/
def Obligations.LegalMapDecodesEveryInstruction : Prop :=
  ∀ m : OpMap, m.Injective →
    (∀ i : Instr, i.WellFormed m)
      ∧ (∀ (w : Word) (i : Instr), decode m w = .ok i ↔ encode m i = w)
      ∧ (∀ w : Word, decode m w = .error (.unrecognised (wordOpcode w))
          ↔ ∀ o : Op, m.code o ≠ w.extractLsb' 25 5)

/-- Whatever the map, a word that decodes to an instruction is that instruction's encoding: no bit of a word is lost. -/
def Obligations.EncodeOfDecode : Prop :=
  ∀ (m : OpMap) (w : Word) (i : Instr), decode m w = .ok i → encode m i = w

/-- R56: with bits 31:30 zero the encoding is the formula `(c << 25) | (d << 22) | (s0 << 19) | (s1 << 16) | k`. -/
def Obligations.EncodingFormula : Prop :=
  ∀ (m : OpMap) (i : Instr), i.fields.unused = 0 →
    encode m i =
      ((m.code i.op).zeroExtend 32 <<< 25) ||| (i.fields.dst.zeroExtend 32 <<< 22)
        ||| (i.fields.src0.zeroExtend 32 <<< 19) ||| (i.fields.src1.zeroExtend 32 <<< 16)
        ||| i.fields.imm16.zeroExtend 32

/-- R48: for every word, whatever its opcode, the decoder's immediate is `{16{inst[15]}, inst[15:0]}`; as a number,
`field - 65536` if bit 15 is set, else `field`. -/
def Obligations.ImmediateSignExtension : Prop :=
  ∀ (c : Snapshot) (w : Word),
    (∀ i : Nat, i < 32 → (c.decodeFrom w).immediate.getLsbD i = w.getLsbD (min i 15))
      ∧ (c.decodeFrom w).immediate.toInt
          = if w.getLsbD 15 then ((w.extractLsb' 0 16).toNat : Int) - 65536 else (w.extractLsb' 0 16).toNat

/-- R49, R46: fields an instruction ignores, and bits 31:30, change nothing in what it does to registers, `pc` and memory,
nor in the course of execution. -/
def Obligations.IgnoredFieldsHaveNoEffect : Prop :=
  ∀ (i j : Instr) (s : State), i.op = j.op →
    (i.ignored.dst = false → i.fields.dst = j.fields.dst) →
    (i.ignored.src0 = false → i.fields.src0 = j.fields.src0) →
    (i.ignored.src1 = false → i.fields.src1 = j.fields.src1) →
    (i.ignored.imm16 = false → i.fields.imm16 = j.fields.imm16) →
    Alike SameArchitecture (exec i s) (exec j s)

/-! The operand selector and the shared functions. -/

/-- R60: index 0 reads 0, index 1 the immediate, any other index its cell. -/
def Obligations.OperandSelector : Prop :=
  ∀ (r : Vector Word 8) (imm : Word) (i : RegIx),
    (i = 0 → opnd r imm i = 0) ∧ (i = 1 → opnd r imm i = imm) ∧ (i ≠ 0 → i ≠ 1 → opnd r imm i = r[i.toNat]'i.isLt)

/-- R32: the address of a data access is the low 16 bits of the operand; under DATA_ADDR_OOR = refuse an operand of 65 536 or
more has none. -/
def Obligations.DataAddressOfOperand : Prop :=
  ∀ (c : Config) (v : Word),
    (∀ ea, dataAddress c v = some ea → ea.toNat = v.toNat % 65536)
      ∧ (dataAddress c v = none ↔ c.dataAddrOor = .refuse ∧ 65536 ≤ v.toNat)

/-! One clock tick in each control state. -/

/-- R64: IDLE holds `pc` at 0, goes to FETCH0 when the start flag is set, and changes nothing else (but the cycle count,
R76); the flag is read in IDLE only. -/
def Obligations.IdleTick : Prop :=
  (∀ s : State, s.cur.controlState = .idle →
    tick s = .next (s.commit { s.cur with
      pc := 0
      controlState := if s.start = true then .fetch0 else .idle
      cycleCounter := s.cfg.addCycles s.cur.cycleCounter 1 }))
  ∧ (∀ (s : State) (b : Bool), s.cur.controlState ≠ .idle →
      Alike (fun t t' => { t with start := t'.start } = t') (tick s) (tick { s with start := b }))

/-- R65: FETCH0 clears the branch-taken flag and issues the read at `pc`. That nothing else changes but the cycle count is
R63 (the spec's decision D13, log entry 20). -/
def Obligations.Fetch0Tick : Prop :=
  ∀ s : State, s.cur.controlState = .fetch0 →
    tick s = .next ({ s with branchTaken := false, readLatch := s.readWord s.cur.pc }.commit { s.cur with
      controlState := .fetch1
      cycleCounter := s.cfg.addCycles s.cur.cycleCounter 1 })

/-- R66: FETCH1 captures the read result into `inst`; it is the word at `pc` when the step before was FETCH0. That nothing
else changes but the cycle count is R63 (log entry 20). -/
def Obligations.Fetch1Tick : Prop :=
  (∀ s : State, s.cur.controlState = .fetch1 →
    tick s = .next (s.commit { s.cur with
      inst := s.readLatch
      controlState := .decode0
      cycleCounter := s.cfg.addCycles s.cur.cycleCounter 1 }))
  ∧ (∀ s t u : State, s.cur.controlState = .fetch0 → tick s = .next t → tick t = .next u →
      u.cur.inst = s.readWord s.cur.pc ∧ u.cur.controlState = .decode0)

/-- R67, R47: DECODE0 writes the five decoded fields from `cur.inst`, whatever the opcode. That nothing else changes but
the cycle count is R63 (log entry 20). -/
def Obligations.Decode0Tick : Prop :=
  ∀ s : State, s.cur.controlState = .decode0 →
    tick s = .next (s.commit { s.cur with
      opcode := s.cur.inst.extractLsb' 25 5
      dst := s.cur.inst.extractLsb' 22 3
      src0 := s.cur.inst.extractLsb' 19 3
      src1 := s.cur.inst.extractLsb' 16 3
      immediate := (s.cur.inst.extractLsb' 0 16).signExtend 32
      controlState := .decode1
      cycleCounter := s.cfg.addCycles s.cur.cycleCounter 1 })

/-- R68: DECODE1 stages the operands, for LHI the destination register and the immediate. That nothing else changes but the
cycle count is R63 (log entry 20). -/
def Obligations.Decode1Tick : Prop :=
  ∀ s : State, s.cur.controlState = .decode1 →
    tick s = .next (s.commit { s.cur with
      alu0 := opnd s.cur.regs s.cur.immediate (if s.op = some .lhi then s.cur.dst else s.cur.src0)
      alu1 := if s.op = some .lhi then s.cur.immediate else opnd s.cur.regs s.cur.immediate s.cur.src1
      controlState := .execute0
      cycleCounter := s.cfg.addCycles s.cur.cycleCounter 1 })

/-- R69, R78: EXECUTE0 writes `aluout` for the thirteen opcodes with an ALU result, issues the read of a load, and does
nothing for a store, a halt or an unrecognised opcode; it refuses exactly a load whose address DATA_ADDR_OOR = refuse gives
no meaning. -/
def Obligations.Execute0Tick : Prop :=
  ∀ s : State, s.cur.controlState = .execute0 →
    (s.op = some .ld → dataAddress s.cfg s.cur.alu1 = none →
      tick s = .refused (.dataAddressOutOfRange s.cur.alu1))
    ∧ (∀ ea, s.op = some .ld → dataAddress s.cfg s.cur.alu1 = some ea →
      tick s = .next ({ s with readLatch := s.readWord ea }.commit { s.cur with
        controlState := .execute1
        cycleCounter := s.cfg.addCycles s.cur.cycleCounter 1 }))
    ∧ (∀ r, alu s.cfg s.op s.cur.alu0 s.cur.alu1 = some r →
      tick s = .next (s.commit { s.cur with
        aluout := r
        controlState := .execute1
        cycleCounter := s.cfg.addCycles s.cur.cycleCounter 1 }))
    ∧ (s.op = some .st ∨ s.op = some .hlt ∨ s.op = none →
      tick s = .next (s.commit { s.cur with
        controlState := .execute1
        cycleCounter := s.cfg.addCycles s.cur.cycleCounter 1 }))

/-- R70, R71: EXECUTE1's writes to registers and memory, opcode by opcode; the store is the only one that can be refused. -/
def Obligations.Execute1Commit : Prop :=
  ∀ s : State, s.cur.controlState = .execute1 →
    (∀ o, s.op = some o → o ∈ [Op.add, .sub, .lsf, .rsf, .and, .or, .xor, .lhi] →
      ∃ t, tick s = .next t ∧ t.cur.regs = setCell s.cur.regs s.cur.dst s.cur.aluout ∧ t.mem = s.mem)
    ∧ (s.op = some .ld →
      ∃ t, tick s = .next t ∧ t.cur.regs = setCell s.cur.regs s.cur.dst s.readLatch ∧ t.mem = s.mem)
    ∧ (∀ ea, s.op = some .st → dataAddress s.cfg s.cur.alu1 = some ea →
      ∃ t, tick s = .next t ∧ t.cur.regs = s.cur.regs
        ∧ ∀ a, t.readWord a = if a = ea then s.cur.alu0 else s.readWord a)
    ∧ (s.op = some .st → dataAddress s.cfg s.cur.alu1 = none →
      tick s = .refused (.dataAddressOutOfRange s.cur.alu1))
    ∧ (s.op = some .hlt ∨ s.op = none →
      ∃ t, tick s = .next t ∧ t.cur.regs = s.cur.regs ∧ t.mem = s.mem)

/-- R72: EXECUTE1's branch resolution and program-counter update. Only a branch-family opcode reaches the test of
`aluout`. -/
def Obligations.Execute1BranchResolution : Prop :=
  ∀ s t : State, s.cur.controlState = .execute1 → tick s = .next t →
    let family := s.op = some .jlt ∨ s.op = some .jle ∨ s.op = some .jeq ∨ s.op = some .jne ∨ s.op = some .jin
    (family ∧ s.cur.aluout = 1 →
      t.branchTaken = true ∧ t.cur.pc = s.cur.immediate.extractLsb' 0 16
        ∧ t.cur.regs = setCell s.cur.regs 7 (s.cur.pc.zeroExtend 32))
    ∧ (¬ (family ∧ s.cur.aluout = 1) →
      t.branchTaken = s.branchTaken ∧ (s.branchTaken = false → t.cur.pc = s.cur.pc + 1)
        ∧ (family → t.cur.regs = s.cur.regs))

/-- R73: the next-state function of the control state machine. -/
def Obligations.NextControlState : Prop :=
  ∀ s t : State, tick s = .next t →
    t.cur.controlState =
      match s.cur.controlState with
      | .idle => if s.start = true then .fetch0 else .idle
      | .fetch0 => .fetch1
      | .fetch1 => .decode0
      | .decode0 => .decode1
      | .decode1 => .execute0
      | .execute0 => .execute1
      | .execute1 => if s.op = some .hlt then .idle else .fetch0

/-- R76, R20: every tick counts one cycle, whatever the control state. That a counter of a width CYCW = n counts modulo
2^n is the model's reading of R7 and R8 (DEDUCED, log entry 10); no rule says it of the counter. -/
def Obligations.EveryTickCountsOneCycle : Prop :=
  ∀ s t : State, tick s = .next t →
    (s.cfg.cycw = none → t.cur.cycleCounter = s.cur.cycleCounter + 1)
      ∧ ∀ n, s.cfg.cycw = some n → t.cur.cycleCounter = (s.cur.cycleCounter + 1) % 2 ^ n

/-- R63, R138: a tick reads the current snapshot only: what the next snapshot held before makes no difference, and after
the commit the two are equal. -/
def Obligations.TickReadsCurrentSnapshotOnly : Prop :=
  ∀ (s : State) (n : Snapshot),
    tick { s with nxt := n } = tick s ∧ ∀ t, tick s = .next t → t.nxt = t.cur

/-- R16: the program counter changes in IDLE, where it becomes 0, and at EXECUTE1's commit, and nowhere else. -/
def Obligations.ProgramCounterHoldsDuringWindow : Prop :=
  ∀ s t : State, tick s = .next t →
    (s.cur.controlState = .idle → t.cur.pc = 0)
      ∧ (s.cur.controlState ≠ .idle → s.cur.controlState ≠ .execute1 → t.cur.pc = s.cur.pc)

/-- R37, R77: the read latch and the memory change exactly by the one operation the table gives for the control state, and
that operation is the one the read and write ports show. -/
def Obligations.MemoryInterfaceUse : Prop :=
  ∀ s t : State, tick s = .next t →
    match s.memOp with
    | .none => t.readLatch = s.readLatch ∧ t.mem = s.mem
        ∧ (ports false s).memRead = none ∧ (ports false s).memWrite = none
    | .issueRead a => t.readLatch = s.readWord a ∧ t.mem = s.mem
        ∧ (ports false s).memRead = some a ∧ (ports false s).memWrite = none
    | .issueWrite a v => t.readLatch = s.readLatch ∧ (∀ b, t.readWord b = if b = a then v else s.readWord b)
        ∧ (ports false s).memRead = none ∧ (ports false s).memWrite = some (a, v)

/-- R119 to R122, R77, R125: the events of a clock tick are those its ports show, whatever the level of the reset signal: in
an EXECUTE1 without reset one trace record, and with a halt the dump of memory and the stop before it; in every other tick
none. The place of the trace record after the halt's events is read from R70 (log entry 16). -/
def Obligations.EventsOfATick : Prop :=
  ∀ (resetSignal : Bool) (anyLatch : Word) (s t : State), clock resetSignal anyLatch s = .next t →
    let p := ports resetSignal s
    t.events = s.events
        ++ (if p.dump then [.dump s.cfg.memFill s.mem] else [])
        ++ (if p.stop then [.stop] else [])
        ++ (match p.trace with | some r => [.trace r] | none => [])
      ∧ (p.trace.isSome ↔ resetSignal = false ∧ s.cur.controlState = .execute1)
      ∧ (p.dump = true ↔ resetSignal = false ∧ s.cur.controlState = .execute1 ∧ s.op = some .hlt)
      ∧ (p.stop = true ↔ resetSignal = false ∧ s.cur.controlState = .execute1 ∧ s.op = some .hlt)
      ∧ (resetSignal = false → t.retired = s.retired + (if s.cur.controlState = .execute1 then 1 else 0))

/-! Whole windows and the step. -/

/-- R74: the six ticks from FETCH0 are the one window of the instruction at `pc`, in every field of the state. -/
def Obligations.SixTicksAreOneWindow : Prop :=
  ∀ s : State, s.cur.controlState = .fetch0 → ticks 6 s = step s

/-- In FETCH0, where the word at `pc` decodes to an instruction, the step is that instruction's meaning. -/
def Obligations.StepRunsDecodedInstruction : Prop :=
  ∀ (s : State) (i : Instr), s.cur.controlState = .fetch0 →
    decode s.cfg.opMap (s.readWord s.cur.pc) = .ok i → step s = exec i s

/-- R106: a word whose opcode names no instruction is a no-operation of six cycles that moves `pc` by one. -/
def Obligations.UnrecognisedOpcodeIsNoOperation : Prop :=
  ∀ (s : State) (c : Code), s.cur.controlState = .fetch0 →
    decode s.cfg.opMap (s.readWord s.cur.pc) = .error (.unrecognised c) →
    ∃ t, step s = .next t ∧ WindowOf (s.readWord s.cur.pc) s t ∧ GoesOn s t
      ∧ t.cur.pc = s.cur.pc + 1 ∧ t.cur.regs = s.cur.regs ∧ t.cur.aluout = s.cur.aluout
      ∧ Stages t (opnd s.cur.regs t.cur.immediate t.cur.src0) (opnd s.cur.regs t.cur.immediate t.cur.src1)
      ∧ MemoryKept s t ∧ t.branchTaken = false

/-- R110: under DATA_ADDR_OOR = truncate every step of every state answers a next state: nothing faults and nothing is
refused. -/
def Obligations.NothingStopsUnderTruncate : Prop :=
  ∀ s : State, s.cfg.dataAddrOor = .truncate → ∃ t, step s = .next t

/-- R32: a window is refused exactly where it is a load or a store whose address operand is 65 536 or more and DATA_ADDR_OOR
is refuse. -/
def Obligations.RefusalOfAWindow : Prop :=
  ∀ (i : Instr) (s : State),
    ((∃ r, exec i s = .refused r)
      ↔ (i.op = .ld ∨ i.op = .st) ∧ s.cfg.dataAddrOor = .refuse ∧ 65536 ≤ (s.operand i.fields i.fields.src1).toNat)
    ∧ ∀ r, exec i s = .refused r → r = .dataAddressOutOfRange (s.operand i.fields i.fields.src1)

/-- The consistency of a state is kept by every tick (R19, R23, R24, R28, R63, R128). -/
def Obligations.TickKeepsConsistency : Prop :=
  ∀ s t : State, s.Consistent → tick s = .next t → t.Consistent

/-- The consistency of a state is kept by every step. -/
def Obligations.StepKeepsConsistency : Prop :=
  ∀ s t : State, s.Consistent → step s = .next t → t.Consistent

/-- The state after reset is consistent. -/
def Obligations.ResetIsConsistent : Prop := State.reset.Consistent

/-- The launch state of every image is consistent. -/
def Obligations.LaunchIsConsistent : Prop := ∀ image : List Word, (State.launch image).Consistent

/-- R12, R13, R120: what the cells x[0] and x[1] hold, and what the next snapshot holds, reaches nothing but those cells
and the raw cells a trace record shows (log entry 19): two states that agree but for them stay so in a step, and the events
the step emits agree but for the cells x[0] and x[1] of a trace record. -/
def Obligations.Cells0And1AreNeverRead : Prop :=
  ∀ s s' : State, SameButCells01 s s' →
    Alike (fun t t' => SameButCells01 t t' ∧ SameNewEvents s s' t t') (step s) (step s')

/-- R31, R15: in one step at most one word of memory changes and at most one cell of the registers, a store being the only
way for memory to change; parameters never change. -/
def Obligations.OneWriteAWindow : Prop :=
  ∀ (i : Instr) (s t : State), exec i s = .next t →
    t.cfg = s.cfg
      ∧ (i.op ≠ .st → t.mem = s.mem)
      ∧ (i.op = .st → t.cur.regs = s.cur.regs ∧ ∀ a : Addr,
          some a ≠ dataAddress s.cfg (s.operand i.fields i.fields.src1) → t.readWord a = s.readWord a)
      ∧ ∃ k : RegIx, (isBranch (some i.op) = true → k = 7) ∧ (isBranch (some i.op) = false → k = i.fields.dst)
          ∧ ∀ j, j ≠ k → cell t.cur.regs j = cell s.cur.regs j

/-! The arithmetic, shift and logical instructions. -/

/-- R80: ADD completes on every state and operand; the result is the sum modulo 2^32. -/
def Obligations.AddCompletes : Prop :=
  ∀ (f : Fields) (s : State), ∃ t r, exec (.add f) s = .next t ∧ WritesResult (.add f) s t r
    ∧ Stages t (s.operand f f.src0) (s.operand f f.src1)
    ∧ r.toNat = ((s.operand f f.src0).toNat + (s.operand f f.src1).toNat) % 2 ^ 32

/-- R81: SUB completes on every state and operand; the result is first minus second modulo 2^32. -/
def Obligations.SubCompletes : Prop :=
  ∀ (f : Fields) (s : State), ∃ t r, exec (.sub f) s = .next t ∧ WritesResult (.sub f) s t r
    ∧ Stages t (s.operand f f.src0) (s.operand f f.src1)
    ∧ (r.toNat : Int) = ((s.operand f f.src0).toNat - (s.operand f f.src1).toNat : Int) % 2 ^ 32

/-- R82: LSF completes on every state and operand and shifts RIGHT: by an amount under 32 the quotient by 2^n, rounded down,
of the unsigned value, or of the signed value where RSHIFT_FILL is sign. -/
def Obligations.LsfShiftsRight : Prop :=
  ∀ (f : Fields) (s : State), ∃ t r, exec (.lsf f) s = .next t ∧ WritesResult (.lsf f) s t r
    ∧ Stages t (s.operand f f.src0) (s.operand f f.src1)
    ∧ ((s.operand f f.src1).toNat < 32 →
      (s.cfg.rshiftFill = .zero → r.toNat = (s.operand f f.src0).toNat / 2 ^ (s.operand f f.src1).toNat)
      ∧ (s.cfg.rshiftFill = .sign → r.toInt = (s.operand f f.src0).toInt / 2 ^ (s.operand f f.src1).toNat))

/-- R82: LSF by 32 or more, under each value of SHIFT_OOR; under `arbitrary` the result is that function's value,
whatever it is (log entry 6). -/
def Obligations.LsfBy32OrMore : Prop :=
  ∀ (f : Fields) (s : State), 32 ≤ (s.operand f f.src1).toNat →
    ∃ t r, exec (.lsf f) s = .next t ∧ WritesResult (.lsf f) s t r
      ∧ (s.cfg.shiftOor = .zero → s.cfg.rshiftFill = .zero → r = 0)
      ∧ (s.cfg.shiftOor = .zero → s.cfg.rshiftFill = .sign →
          ∀ k, k < 32 → r.getLsbD k = (s.operand f f.src0).getLsbD 31)
      ∧ (s.cfg.shiftOor = .mod32 → s.cfg.rshiftFill = .zero →
          r.toNat = (s.operand f f.src0).toNat / 2 ^ ((s.operand f f.src1).toNat % 32))
      ∧ (s.cfg.shiftOor = .mod32 → s.cfg.rshiftFill = .sign →
          r.toInt = (s.operand f f.src0).toInt / 2 ^ ((s.operand f f.src1).toNat % 32))
      ∧ (s.cfg.shiftOor = .arbitrary → r = Config.arbitraryShiftRight (s.operand f f.src0) (s.operand f f.src1))

/-- R83: RSF completes on every state and operand and shifts LEFT: by an amount under 32 the product by 2^n modulo 2^32; by
32 or more 0, or the shift by the amount modulo 32, as SHIFT_OOR says. -/
def Obligations.RsfShiftsLeft : Prop :=
  ∀ (f : Fields) (s : State), ∃ t r, exec (.rsf f) s = .next t ∧ WritesResult (.rsf f) s t r
    ∧ Stages t (s.operand f f.src0) (s.operand f f.src1)
    ∧ ((s.operand f f.src1).toNat < 32 →
        r.toNat = (s.operand f f.src0).toNat * 2 ^ (s.operand f f.src1).toNat % 2 ^ 32)
    ∧ (32 ≤ (s.operand f f.src1).toNat → s.cfg.shiftOor = .zero → r = 0)
    ∧ (32 ≤ (s.operand f f.src1).toNat → s.cfg.shiftOor = .mod32 →
        r.toNat = (s.operand f f.src0).toNat * 2 ^ ((s.operand f f.src1).toNat % 32) % 2 ^ 32)
    ∧ (32 ≤ (s.operand f f.src1).toNat → s.cfg.shiftOor = .arbitrary →
        r = Config.arbitraryShiftLeft (s.operand f f.src0) (s.operand f f.src1))

/-- R84, R85, R86: AND, OR and XOR complete on every state and operand and act bit by bit. -/
def Obligations.LogicalCompletes : Prop :=
  ∀ (f : Fields) (s : State),
    (∃ t r, exec (.and f) s = .next t ∧ WritesResult (.and f) s t r
      ∧ Stages t (s.operand f f.src0) (s.operand f f.src1)
      ∧ ∀ k, k < 32 → r.getLsbD k = ((s.operand f f.src0).getLsbD k && (s.operand f f.src1).getLsbD k))
    ∧ (∃ t r, exec (.or f) s = .next t ∧ WritesResult (.or f) s t r
      ∧ Stages t (s.operand f f.src0) (s.operand f f.src1)
      ∧ ∀ k, k < 32 → r.getLsbD k = ((s.operand f f.src0).getLsbD k || (s.operand f f.src1).getLsbD k))
    ∧ (∃ t r, exec (.xor f) s = .next t ∧ WritesResult (.xor f) s t r
      ∧ Stages t (s.operand f f.src0) (s.operand f f.src1)
      ∧ ∀ k, k < 32 → r.getLsbD k = ((s.operand f f.src0).getLsbD k != (s.operand f f.src1).getLsbD k))

/-- R87, R61: LHI completes on every state and operand: the upper half becomes the immediate field, the lower half is that
of the destination as `opnd` reads it. -/
def Obligations.LhiCompletes : Prop :=
  ∀ (f : Fields) (s : State), ∃ t r, exec (.lhi f) s = .next t ∧ WritesResult (.lhi f) s t r
    ∧ Stages t (s.operand f f.dst) (immediateOf f.imm16)
    ∧ r.toNat = f.imm16.toNat * 65536 + (s.operand f f.dst).toNat % 65536

/-! Load and store. -/

/-- R90: LD completes wherever its address operand has an address: the destination holds the word there, every other cell
and all of memory are as before; `aluout` is not written. -/
def Obligations.LoadCompletes : Prop :=
  ∀ (f : Fields) (s : State) (ea : Addr), dataAddress s.cfg (s.operand f f.src1) = some ea →
    ∃ t, exec (.ld f) s = .next t ∧ WindowOf (encode s.cfg.opMap (.ld f)) s t ∧ GoesOn s t
      ∧ Stages t (s.operand f f.src0) (s.operand f f.src1)
      ∧ cell t.cur.regs f.dst = s.readWord ea ∧ OtherCellsKept f.dst s t
      ∧ t.cur.pc = s.cur.pc + 1 ∧ t.cur.aluout = s.cur.aluout ∧ MemoryKept s t
      ∧ t.branchTaken = false ∧ t.readLatch = s.readWord ea

/-- R91: ST completes wherever its address operand has an address: the word there becomes the data operand, every other word
and every register are as before; `aluout` is not written. -/
def Obligations.StoreCompletes : Prop :=
  ∀ (f : Fields) (s : State) (ea : Addr), dataAddress s.cfg (s.operand f f.src1) = some ea →
    ∃ t, exec (.st f) s = .next t ∧ WindowOf (encode s.cfg.opMap (.st f)) s t ∧ GoesOn s t
      ∧ Stages t (s.operand f f.src0) (s.operand f f.src1)
      ∧ t.readWord ea = s.operand f f.src0 ∧ (∀ a, a ≠ ea → t.readWord a = s.readWord a)
      ∧ t.cur.regs = s.cur.regs ∧ t.cur.pc = s.cur.pc + 1 ∧ t.cur.aluout = s.cur.aluout
      ∧ t.branchTaken = false ∧ t.readLatch = encode s.cfg.opMap (.st f)

/-- R42, R93: a store followed by a load from the same address yields the stored value. -/
def Obligations.StoreThenLoadYieldsStoredValue : Prop :=
  ∀ (f g : Fields) (s t u : State) (ea : Addr),
    exec (.st f) s = .next t → exec (.ld g) t = .next u →
    dataAddress s.cfg (s.operand f f.src1) = some ea → dataAddress t.cfg (t.operand g g.src1) = some ea →
    cell u.cur.regs g.dst = s.operand f f.src0

/-- R44: a store to the address of the next instruction is fetched by it. -/
def Obligations.StoreIntoNextInstructionIsFetched : Prop :=
  ∀ (f : Fields) (s t : State), exec (.st f) s = .next t →
    dataAddress s.cfg (s.operand f f.src1) = some (s.cur.pc + 1) →
    ∀ i, decode s.cfg.opMap (s.operand f f.src0) = .ok i → step t = exec i t

/-! The branch family. -/

/-- R96, R104: JLT completes on every state and operand and is taken exactly when the first operand is less than the second,
signed or unsigned as CMP_SIGNED says. -/
def Obligations.JltCompletes : Prop :=
  ∀ (f : Fields) (s : State), ∃ t, exec (.jlt f) s = .next t
    ∧ Stages t (s.operand f f.src0) (s.operand f f.src1)
    ∧ (s.cfg.cmpSigned = true →
        Branches (.jlt f) s t ((s.operand f f.src0).toInt < (s.operand f f.src1).toInt))
    ∧ (s.cfg.cmpSigned = false →
        Branches (.jlt f) s t ((s.operand f f.src0).toNat < (s.operand f f.src1).toNat))

/-- R97, R104: JLE completes on every state and operand and is taken exactly when the first operand is less than or equal to
the second. -/
def Obligations.JleCompletes : Prop :=
  ∀ (f : Fields) (s : State), ∃ t, exec (.jle f) s = .next t
    ∧ Stages t (s.operand f f.src0) (s.operand f f.src1)
    ∧ (s.cfg.cmpSigned = true →
        Branches (.jle f) s t ((s.operand f f.src0).toInt ≤ (s.operand f f.src1).toInt))
    ∧ (s.cfg.cmpSigned = false →
        Branches (.jle f) s t ((s.operand f f.src0).toNat ≤ (s.operand f f.src1).toNat))

/-- R98, R99: JEQ and JNE complete on every state and operand; JEQ is taken exactly when the operands are equal, JNE exactly
when they differ. -/
def Obligations.JeqJneComplete : Prop :=
  ∀ (f : Fields) (s : State),
    (∃ t, exec (.jeq f) s = .next t ∧ Stages t (s.operand f f.src0) (s.operand f f.src1)
      ∧ Branches (.jeq f) s t (s.operand f f.src0 = s.operand f f.src1))
    ∧ (∃ t, exec (.jne f) s = .next t ∧ Stages t (s.operand f f.src0) (s.operand f f.src1)
      ∧ Branches (.jne f) s t (s.operand f f.src0 ≠ s.operand f f.src1))

/-- R100: JIN completes on every state and is always taken; its target is the immediate. -/
def Obligations.JinCompletes : Prop :=
  ∀ (f : Fields) (s : State), ∃ t, exec (.jin f) s = .next t
    ∧ Stages t (s.operand f f.src0) (s.operand f f.src1) ∧ Branches (.jin f) s t True

/-- R103: a compare-and-branch whose two sources are the same index: JEQ and JLE are always taken, JNE and JLT never. -/
def Obligations.EqualSourcesDecideBranches : Prop :=
  ∀ (f : Fields) (s : State), f.src0 = f.src1 →
    (∃ t, exec (.jeq f) s = .next t ∧ t.cur.pc = f.imm16)
      ∧ (∃ t, exec (.jle f) s = .next t ∧ t.cur.pc = f.imm16)
      ∧ (∃ t, exec (.jne f) s = .next t ∧ t.cur.pc = s.cur.pc + 1 ∧ t.cur.regs = s.cur.regs)
      ∧ (∃ t, exec (.jlt f) s = .next t ∧ t.cur.pc = s.cur.pc + 1 ∧ t.cur.regs = s.cur.regs)

/-! Halt, reset, start. -/

/-- R105: HLT completes on every state: `pc` moves by one, the control state is IDLE, the start flag is 0, `Dump`, `Stop` and
one trace record are emitted, no register and no memory word changes. -/
def Obligations.HltCompletes : Prop :=
  ∀ (f : Fields) (s : State), ∃ t r, exec (.hlt f) s = .next t
    ∧ WindowOf (encode s.cfg.opMap (.hlt f)) s t
    ∧ Stages t (s.operand f f.src0) (s.operand f f.src1)
    ∧ t.cur.pc = s.cur.pc + 1 ∧ t.cur.controlState = .idle ∧ t.start = false
    ∧ t.events = s.events ++ [.dump s.cfg.memFill s.mem, .stop, .trace r] ∧ Traces s t r
    ∧ t.cur.regs = s.cur.regs ∧ t.cur.aluout = s.cur.aluout ∧ MemoryKept s t
    ∧ t.branchTaken = false ∧ t.readLatch = encode s.cfg.opMap (.hlt f)

/-- R128, R111: during a run only a halt clears the start flag and leads to IDLE. -/
def Obligations.OnlyHaltEndsARun : Prop :=
  ∀ s t : State, s.cur.controlState ≠ .idle → step s = .next t →
    (t.cur.controlState = .idle ∨ t.start ≠ s.start) →
    (s.cur.controlState = .fetch0 ∧ ∃ f, decode s.cfg.opMap (s.readWord s.cur.pc) = .ok (.hlt f))
      ∨ (s.cur.controlState = .execute1 ∧ s.op = some .hlt)

/-- R108: in IDLE with the start flag 0 any number of ticks holds `pc` at 0, counts the cycles and changes nothing else. -/
def Obligations.IdleStaysIdle : Prop :=
  ∀ (k : Nat) (s : State), s.cur.controlState = .idle → s.start = false → s.cfg.cycw = none →
    ∃ t, ticks (k + 1) s = .next t
      ∧ t = s.commit { s.cur with pc := 0, cycleCounter := s.cur.cycleCounter + (k + 1) }

/-- R125, R126: at a tick with the reset signal asserted, in any control state, the snapshot becomes zero in both instances
and IDLE, the start flag 0, the instruction count its base; memory and events stay. Of the output ports (R77) only `diag`
shows anything: no memory operation is issued and no event raised. -/
def Obligations.ResetSignalWins : Prop :=
  ∀ (s : State) (anyLatch : Word), ∃ t, clock true anyLatch s = .next t
    ∧ t.cur = Snapshot.zero ∧ t.nxt = Snapshot.zero ∧ t.start = false ∧ t.retired = s.cfg.traceIndexBase
    ∧ t.mem = s.mem ∧ t.events = s.events ∧ t.cfg = s.cfg
    ∧ ports true s
        = { memRead := none, memWrite := none, trace := none, dump := false, stop := false, diag := s.cur }

/-- R29: what reset leaves in the snapshot, field by field, and the start flag, instruction count and memory. The read latch,
which the rule leaves unspecified, is not stated (log entry 13). -/
def Obligations.ResetValues : Prop :=
  (∀ i : RegIx, cell State.reset.cur.regs i = 0)
    ∧ State.reset.cur.pc = 0 ∧ State.reset.cur.inst = 0 ∧ State.reset.cur.opcode = 0
    ∧ State.reset.cur.dst = 0 ∧ State.reset.cur.src0 = 0 ∧ State.reset.cur.src1 = 0
    ∧ State.reset.cur.immediate = 0 ∧ State.reset.cur.alu0 = 0 ∧ State.reset.cur.alu1 = 0
    ∧ State.reset.cur.aluout = 0 ∧ State.reset.cur.cycleCounter = 0 ∧ State.reset.cur.controlState = .idle
    ∧ State.reset.start = false ∧ State.reset.retired = State.reset.cfg.traceIndexBase
    ∧ ∀ a, State.reset.readWord a = State.reset.cfg.memFill

/-- R129, R130: in the launch state of an image memory holds the image from address 0 and the fill elsewhere, words beyond
65 536 being dropped; the first step leads to FETCH0 at address 0. -/
def Obligations.LaunchStateHoldsImage : Prop :=
  ∀ image : List Word,
    (∀ a : Addr, (State.launch image).readWord a = image.getD a.toNat (State.launch image).cfg.memFill)
      ∧ ∃ t, step (State.launch image) = .next t ∧ t.cur.controlState = .fetch0 ∧ t.cur.pc = 0

/-! Memory. -/

/-- R34, R40: a read after a write of the same word gives the value written, every other word is left alone, and the canonical
form is kept. -/
def Obligations.WriteThenRead : Prop :=
  ∀ (s : State) (a : Addr) (v : Word),
    (∀ b, (s.writeWord a v).readWord b = if b = a then v else s.readWord b)
      ∧ (s.mem.wf s.cfg.memFill → (s.writeWord a v).mem.wf s.cfg.memFill)

/-- Two memories in canonical form that read alike at every address are the same data. -/
def Obligations.CanonicalMemoryIsUnique : Prop :=
  ∀ (fill : Word) (m m' : Memory), m.wf fill → m'.wf fill →
    (∀ a, a < memWords → m.read fill a = m'.read fill a) → m = m'
end

