-- ==== Sys2Proof/Laws/Encoding.lean ====
section
/-!
SUPPORT. The fields of an encoded word, and the two directions of the opcode map's lookup.
-/

namespace Sys2Proof

theorem wordOpcode_encodeFields (c : Code) (f : Fields) : wordOpcode (encodeFields c f) = c := by
  apply BitVec.eq_of_getLsbD_eq
  intro i hi
  simp only [wordOpcode, encodeFields, BitVec.getLsbD_extractLsb', BitVec.getLsbD_append]
  rw [if_neg (by omega), if_neg (by omega), if_neg (by omega), if_neg (by omega), if_pos (by omega)]
  simp only [hi, decide_true, Bool.true_and]
  congr 1
  omega

theorem wordDst_encodeFields (c : Code) (f : Fields) : wordDst (encodeFields c f) = f.dst := by
  apply BitVec.eq_of_getLsbD_eq
  intro i hi
  simp only [wordDst, encodeFields, BitVec.getLsbD_extractLsb', BitVec.getLsbD_append]
  rw [if_neg (by omega), if_neg (by omega), if_neg (by omega), if_pos (by omega)]
  simp only [hi, decide_true, Bool.true_and]
  congr 1
  omega

theorem wordSrc0_encodeFields (c : Code) (f : Fields) : wordSrc0 (encodeFields c f) = f.src0 := by
  apply BitVec.eq_of_getLsbD_eq
  intro i hi
  simp only [wordSrc0, encodeFields, BitVec.getLsbD_extractLsb', BitVec.getLsbD_append]
  rw [if_neg (by omega), if_neg (by omega), if_pos (by omega)]
  simp only [hi, decide_true, Bool.true_and]
  congr 1
  omega

theorem wordSrc1_encodeFields (c : Code) (f : Fields) : wordSrc1 (encodeFields c f) = f.src1 := by
  apply BitVec.eq_of_getLsbD_eq
  intro i hi
  simp only [wordSrc1, encodeFields, BitVec.getLsbD_extractLsb', BitVec.getLsbD_append]
  rw [if_neg (by omega), if_pos (by omega)]
  simp only [hi, decide_true, Bool.true_and]
  congr 1
  omega

theorem wordImm16_encodeFields (c : Code) (f : Fields) : wordImm16 (encodeFields c f) = f.imm16 := by
  apply BitVec.eq_of_getLsbD_eq
  intro i hi
  simp only [wordImm16, encodeFields, BitVec.getLsbD_extractLsb', BitVec.getLsbD_append]
  rw [if_pos (by omega)]
  simp only [hi, decide_true, Bool.true_and]
  congr 1
  omega

theorem wordUnused_encodeFields (c : Code) (f : Fields) : wordUnused (encodeFields c f) = f.unused := by
  apply BitVec.eq_of_getLsbD_eq
  intro i hi
  simp only [wordUnused, encodeFields, BitVec.getLsbD_extractLsb', BitVec.getLsbD_append]
  rw [if_neg (by omega), if_neg (by omega), if_neg (by omega), if_neg (by omega), if_neg (by omega)]
  simp only [hi, decide_true, Bool.true_and]
  congr 1
  omega

theorem wordFields_encodeFields (c : Code) (f : Fields) : wordFields (encodeFields c f) = f := by
  cases f
  simp [wordFields, wordUnused_encodeFields, wordDst_encodeFields, wordSrc0_encodeFields, wordSrc1_encodeFields,
    wordImm16_encodeFields]

/-- A name found by the lookup has that number. -/
theorem code_of_lookup {m : OpMap} {c : Code} {o : Op} (h : m.lookup c = some o) : m.code o = c := by
  simpa using List.find?_some h

theorem Op.mem_all (o : Op) : o ∈ Op.all := by cases o <;> decide

/-- A name whose number is its alone is the one the lookup finds. -/
theorem lookup_of_alone {m : OpMap} {o : Op} (h : ∀ p ∈ Op.all, m.code p = m.code o → p = o) :
    m.lookup (m.code o) = some o := by
  cases hl : m.lookup (m.code o) with
  | none =>
    have := List.find?_eq_none.mp hl o (Op.mem_all o)
    simp at this
  | some p =>
    rw [h p (Op.mem_all p) (code_of_lookup hl)]

@[simp] theorem Instr.op_make (o : Op) (f : Fields) : (Instr.make o f).op = o := by cases o <;> rfl

@[simp] theorem Instr.fields_make (o : Op) (f : Fields) : (Instr.make o f).fields = f := by cases o <;> rfl

theorem Instr.make_op_fields (i : Instr) : Instr.make i.op i.fields = i := by cases i <;> rfl

end Sys2Proof
end

