-- ==== Sys2Proof/Laws/State.lean ====
section
/-!
SUPPORT. One lemma per field per named update of the state and of a snapshot, true by rfl, so that no proof unfolds an
update.
-/

namespace Sys2Proof.Machine

@[simp] theorem State.commit_cfg (s : State) (n : Snapshot) : (s.commit n).cfg = s.cfg := rfl
@[simp] theorem State.commit_cur (s : State) (n : Snapshot) : (s.commit n).cur = n := rfl
@[simp] theorem State.commit_nxt (s : State) (n : Snapshot) : (s.commit n).nxt = n := rfl
@[simp] theorem State.commit_mem (s : State) (n : Snapshot) : (s.commit n).mem = s.mem := rfl
@[simp] theorem State.commit_start (s : State) (n : Snapshot) : (s.commit n).start = s.start := rfl
@[simp] theorem State.commit_branchTaken (s : State) (n : Snapshot) : (s.commit n).branchTaken = s.branchTaken := rfl
@[simp] theorem State.commit_readLatch (s : State) (n : Snapshot) : (s.commit n).readLatch = s.readLatch := rfl
@[simp] theorem State.commit_retired (s : State) (n : Snapshot) : (s.commit n).retired = s.retired := rfl
@[simp] theorem State.commit_events (s : State) (n : Snapshot) : (s.commit n).events = s.events := rfl

@[simp] theorem State.writeWord_cfg (s : State) (a : Addr) (v : Word) : (s.writeWord a v).cfg = s.cfg := rfl
@[simp] theorem State.writeWord_cur (s : State) (a : Addr) (v : Word) : (s.writeWord a v).cur = s.cur := rfl
@[simp] theorem State.writeWord_nxt (s : State) (a : Addr) (v : Word) : (s.writeWord a v).nxt = s.nxt := rfl
@[simp] theorem State.writeWord_mem (s : State) (a : Addr) (v : Word) : (s.writeWord a v).mem = s.mem.write s.cfg.memFill a.toNat v := rfl
@[simp] theorem State.writeWord_start (s : State) (a : Addr) (v : Word) : (s.writeWord a v).start = s.start := rfl
@[simp] theorem State.writeWord_branchTaken (s : State) (a : Addr) (v : Word) : (s.writeWord a v).branchTaken = s.branchTaken := rfl
@[simp] theorem State.writeWord_readLatch (s : State) (a : Addr) (v : Word) : (s.writeWord a v).readLatch = s.readLatch := rfl
@[simp] theorem State.writeWord_retired (s : State) (a : Addr) (v : Word) : (s.writeWord a v).retired = s.retired := rfl
@[simp] theorem State.writeWord_events (s : State) (a : Addr) (v : Word) : (s.writeWord a v).events = s.events := rfl

@[simp] theorem State.issueRead_cfg (s : State) (a : Addr) : (s.issueRead a).cfg = s.cfg := rfl
@[simp] theorem State.issueRead_cur (s : State) (a : Addr) : (s.issueRead a).cur = s.cur := rfl
@[simp] theorem State.issueRead_nxt (s : State) (a : Addr) : (s.issueRead a).nxt = s.nxt := rfl
@[simp] theorem State.issueRead_mem (s : State) (a : Addr) : (s.issueRead a).mem = s.mem := rfl
@[simp] theorem State.issueRead_start (s : State) (a : Addr) : (s.issueRead a).start = s.start := rfl
@[simp] theorem State.issueRead_branchTaken (s : State) (a : Addr) : (s.issueRead a).branchTaken = s.branchTaken := rfl
@[simp] theorem State.issueRead_readLatch (s : State) (a : Addr) : (s.issueRead a).readLatch = s.readWord a := rfl
@[simp] theorem State.issueRead_retired (s : State) (a : Addr) : (s.issueRead a).retired = s.retired := rfl
@[simp] theorem State.issueRead_events (s : State) (a : Addr) : (s.issueRead a).events = s.events := rfl

@[simp] theorem State.issueWrite_cfg (s : State) (a : Addr) (v : Word) : (s.issueWrite a v).cfg = s.cfg := rfl
@[simp] theorem State.issueWrite_cur (s : State) (a : Addr) (v : Word) : (s.issueWrite a v).cur = s.cur := rfl
@[simp] theorem State.issueWrite_nxt (s : State) (a : Addr) (v : Word) : (s.issueWrite a v).nxt = s.nxt := rfl
@[simp] theorem State.issueWrite_mem (s : State) (a : Addr) (v : Word) : (s.issueWrite a v).mem = s.mem.write s.cfg.memFill a.toNat v := rfl
@[simp] theorem State.issueWrite_start (s : State) (a : Addr) (v : Word) : (s.issueWrite a v).start = s.start := rfl
@[simp] theorem State.issueWrite_branchTaken (s : State) (a : Addr) (v : Word) : (s.issueWrite a v).branchTaken = s.branchTaken := rfl
@[simp] theorem State.issueWrite_readLatch (s : State) (a : Addr) (v : Word) : (s.issueWrite a v).readLatch = s.readLatch := rfl
@[simp] theorem State.issueWrite_retired (s : State) (a : Addr) (v : Word) : (s.issueWrite a v).retired = s.retired := rfl
@[simp] theorem State.issueWrite_events (s : State) (a : Addr) (v : Word) : (s.issueWrite a v).events = s.events := rfl

@[simp] theorem State.inject_cfg (s : State) (a : Addr) (v : Word) : (s.inject a v).cfg = s.cfg := rfl
@[simp] theorem State.inject_cur (s : State) (a : Addr) (v : Word) : (s.inject a v).cur = s.cur := rfl
@[simp] theorem State.inject_nxt (s : State) (a : Addr) (v : Word) : (s.inject a v).nxt = s.nxt := rfl
@[simp] theorem State.inject_mem (s : State) (a : Addr) (v : Word) : (s.inject a v).mem = s.mem.write s.cfg.memFill a.toNat v := rfl
@[simp] theorem State.inject_start (s : State) (a : Addr) (v : Word) : (s.inject a v).start = s.start := rfl
@[simp] theorem State.inject_branchTaken (s : State) (a : Addr) (v : Word) : (s.inject a v).branchTaken = s.branchTaken := rfl
@[simp] theorem State.inject_readLatch (s : State) (a : Addr) (v : Word) : (s.inject a v).readLatch = s.readLatch := rfl
@[simp] theorem State.inject_retired (s : State) (a : Addr) (v : Word) : (s.inject a v).retired = s.retired := rfl
@[simp] theorem State.inject_events (s : State) (a : Addr) (v : Word) : (s.inject a v).events = s.events := rfl

@[simp] theorem State.emit_cfg (s : State) (e : Event) : (s.emit e).cfg = s.cfg := rfl
@[simp] theorem State.emit_cur (s : State) (e : Event) : (s.emit e).cur = s.cur := rfl
@[simp] theorem State.emit_nxt (s : State) (e : Event) : (s.emit e).nxt = s.nxt := rfl
@[simp] theorem State.emit_mem (s : State) (e : Event) : (s.emit e).mem = s.mem := rfl
@[simp] theorem State.emit_start (s : State) (e : Event) : (s.emit e).start = s.start := rfl
@[simp] theorem State.emit_branchTaken (s : State) (e : Event) : (s.emit e).branchTaken = s.branchTaken := rfl
@[simp] theorem State.emit_readLatch (s : State) (e : Event) : (s.emit e).readLatch = s.readLatch := rfl
@[simp] theorem State.emit_retired (s : State) (e : Event) : (s.emit e).retired = s.retired := rfl
@[simp] theorem State.emit_events (s : State) (e : Event) : (s.emit e).events = s.events ++ [e] := rfl

@[simp] theorem State.emitTrace_cfg (s : State) (o : Option Op) (c : Snapshot) (r : Vector Word 8) : (s.emitTrace o c r).cfg = s.cfg := rfl
@[simp] theorem State.emitTrace_cur (s : State) (o : Option Op) (c : Snapshot) (r : Vector Word 8) : (s.emitTrace o c r).cur = s.cur := rfl
@[simp] theorem State.emitTrace_nxt (s : State) (o : Option Op) (c : Snapshot) (r : Vector Word 8) : (s.emitTrace o c r).nxt = s.nxt := rfl
@[simp] theorem State.emitTrace_mem (s : State) (o : Option Op) (c : Snapshot) (r : Vector Word 8) : (s.emitTrace o c r).mem = s.mem := rfl
@[simp] theorem State.emitTrace_start (s : State) (o : Option Op) (c : Snapshot) (r : Vector Word 8) : (s.emitTrace o c r).start = s.start := rfl
@[simp] theorem State.emitTrace_branchTaken (s : State) (o : Option Op) (c : Snapshot) (r : Vector Word 8) : (s.emitTrace o c r).branchTaken = s.branchTaken := rfl
@[simp] theorem State.emitTrace_readLatch (s : State) (o : Option Op) (c : Snapshot) (r : Vector Word 8) : (s.emitTrace o c r).readLatch = s.readLatch := rfl
@[simp] theorem State.emitTrace_retired (s : State) (o : Option Op) (c : Snapshot) (r : Vector Word 8) : (s.emitTrace o c r).retired = s.retired + 1 := rfl
@[simp] theorem State.emitTrace_events (s : State) (o : Option Op) (c : Snapshot) (r : Vector Word 8) : (s.emitTrace o c r).events = s.events ++ [.trace (traceRecord s.retired o c r)] := rfl

@[simp] theorem State.haltEvents_cfg (s : State) : (s.haltEvents).cfg = s.cfg := rfl
@[simp] theorem State.haltEvents_cur (s : State) : (s.haltEvents).cur = s.cur := rfl
@[simp] theorem State.haltEvents_nxt (s : State) : (s.haltEvents).nxt = s.nxt := rfl
@[simp] theorem State.haltEvents_mem (s : State) : (s.haltEvents).mem = s.mem := rfl
@[simp] theorem State.haltEvents_start (s : State) : (s.haltEvents).start = false := rfl
@[simp] theorem State.haltEvents_branchTaken (s : State) : (s.haltEvents).branchTaken = s.branchTaken := rfl
@[simp] theorem State.haltEvents_readLatch (s : State) : (s.haltEvents).readLatch = s.readLatch := rfl
@[simp] theorem State.haltEvents_retired (s : State) : (s.haltEvents).retired = s.retired := rfl
@[simp] theorem State.haltEvents_events (s : State) : (s.haltEvents).events = s.events ++ [.dump s.cfg.memFill s.mem] ++ [.stop] := rfl

@[simp] theorem State.opened_cfg (s : State) (w : Word) : (s.opened w).cfg = s.cfg := rfl
@[simp] theorem State.opened_cur (s : State) (w : Word) : (s.opened w).cur = s.cur := rfl
@[simp] theorem State.opened_nxt (s : State) (w : Word) : (s.opened w).nxt = s.nxt := rfl
@[simp] theorem State.opened_mem (s : State) (w : Word) : (s.opened w).mem = s.mem := rfl
@[simp] theorem State.opened_start (s : State) (w : Word) : (s.opened w).start = s.start := rfl
@[simp] theorem State.opened_branchTaken (s : State) (w : Word) : (s.opened w).branchTaken = false := rfl
@[simp] theorem State.opened_readLatch (s : State) (w : Word) : (s.opened w).readLatch = w := rfl
@[simp] theorem State.opened_retired (s : State) (w : Word) : (s.opened w).retired = s.retired := rfl
@[simp] theorem State.opened_events (s : State) (w : Word) : (s.opened w).events = s.events := rfl

@[simp] theorem State.retire_cfg (s : State) (o : Option Op) (c n : Snapshot) (st : ControlState) : (s.retire o c n st).cfg = s.cfg := rfl
@[simp] theorem State.retire_cur (s : State) (o : Option Op) (c n : Snapshot) (st : ControlState) : (s.retire o c n st).cur = { n with controlState := st, cycleCounter := s.cfg.addCycles c.cycleCounter 6 } := rfl
@[simp] theorem State.retire_nxt (s : State) (o : Option Op) (c n : Snapshot) (st : ControlState) : (s.retire o c n st).nxt = { n with controlState := st, cycleCounter := s.cfg.addCycles c.cycleCounter 6 } := rfl
@[simp] theorem State.retire_mem (s : State) (o : Option Op) (c n : Snapshot) (st : ControlState) : (s.retire o c n st).mem = s.mem := rfl
@[simp] theorem State.retire_start (s : State) (o : Option Op) (c n : Snapshot) (st : ControlState) : (s.retire o c n st).start = s.start := rfl
@[simp] theorem State.retire_branchTaken (s : State) (o : Option Op) (c n : Snapshot) (st : ControlState) : (s.retire o c n st).branchTaken = s.branchTaken := rfl
@[simp] theorem State.retire_readLatch (s : State) (o : Option Op) (c n : Snapshot) (st : ControlState) : (s.retire o c n st).readLatch = s.readLatch := rfl
@[simp] theorem State.retire_retired (s : State) (o : Option Op) (c n : Snapshot) (st : ControlState) : (s.retire o c n st).retired = s.retired + 1 := rfl
@[simp] theorem State.retire_events (s : State) (o : Option Op) (c n : Snapshot) (st : ControlState) : (s.retire o c n st).events = s.events ++ [.trace (traceRecord s.retired o c n.regs)] := rfl

@[simp] theorem State.setFlag_cfg (s : State) (b : Bool) : (s.setFlag b).cfg = s.cfg := rfl
@[simp] theorem State.setFlag_cur (s : State) (b : Bool) : (s.setFlag b).cur = s.cur := rfl
@[simp] theorem State.setFlag_nxt (s : State) (b : Bool) : (s.setFlag b).nxt = s.nxt := rfl
@[simp] theorem State.setFlag_mem (s : State) (b : Bool) : (s.setFlag b).mem = s.mem := rfl
@[simp] theorem State.setFlag_start (s : State) (b : Bool) : (s.setFlag b).start = s.start := rfl
@[simp] theorem State.setFlag_branchTaken (s : State) (b : Bool) : (s.setFlag b).branchTaken = b := rfl
@[simp] theorem State.setFlag_readLatch (s : State) (b : Bool) : (s.setFlag b).readLatch = s.readLatch := rfl
@[simp] theorem State.setFlag_retired (s : State) (b : Bool) : (s.setFlag b).retired = s.retired := rfl
@[simp] theorem State.setFlag_events (s : State) (b : Bool) : (s.setFlag b).events = s.events := rfl

@[simp] theorem State.setStart_cfg (s : State) : (s.setStart).cfg = s.cfg := rfl
@[simp] theorem State.setStart_cur (s : State) : (s.setStart).cur = s.cur := rfl
@[simp] theorem State.setStart_nxt (s : State) : (s.setStart).nxt = s.nxt := rfl
@[simp] theorem State.setStart_mem (s : State) : (s.setStart).mem = s.mem := rfl
@[simp] theorem State.setStart_start (s : State) : (s.setStart).start = true := rfl
@[simp] theorem State.setStart_branchTaken (s : State) : (s.setStart).branchTaken = s.branchTaken := rfl
@[simp] theorem State.setStart_readLatch (s : State) : (s.setStart).readLatch = s.readLatch := rfl
@[simp] theorem State.setStart_retired (s : State) : (s.setStart).retired = s.retired := rfl
@[simp] theorem State.setStart_events (s : State) : (s.setStart).events = s.events := rfl

@[simp] theorem State.applyReset_cfg (s : State) (l : Word) : (s.applyReset l).cfg = s.cfg := rfl
@[simp] theorem State.applyReset_cur (s : State) (l : Word) : (s.applyReset l).cur = Snapshot.zero := rfl
@[simp] theorem State.applyReset_nxt (s : State) (l : Word) : (s.applyReset l).nxt = Snapshot.zero := rfl
@[simp] theorem State.applyReset_mem (s : State) (l : Word) : (s.applyReset l).mem = s.mem := rfl
@[simp] theorem State.applyReset_start (s : State) (l : Word) : (s.applyReset l).start = false := rfl
@[simp] theorem State.applyReset_branchTaken (s : State) (l : Word) : (s.applyReset l).branchTaken = false := rfl
@[simp] theorem State.applyReset_readLatch (s : State) (l : Word) : (s.applyReset l).readLatch = l := rfl
@[simp] theorem State.applyReset_retired (s : State) (l : Word) : (s.applyReset l).retired = s.cfg.traceIndexBase := rfl
@[simp] theorem State.applyReset_events (s : State) (l : Word) : (s.applyReset l).events = s.events := rfl

@[simp] theorem State.placeWord_cfg (s : State) (w : Word) : (s.placeWord w).cfg = s.cfg := rfl
@[simp] theorem State.placeWord_cur (s : State) (w : Word) : (s.placeWord w).cur = { s.cur with controlState := .fetch0 } := rfl
@[simp] theorem State.placeWord_nxt (s : State) (w : Word) : (s.placeWord w).nxt = { s.cur with controlState := .fetch0 } := rfl
@[simp] theorem State.placeWord_mem (s : State) (w : Word) : (s.placeWord w).mem = s.mem.write s.cfg.memFill s.cur.pc.toNat w := rfl
@[simp] theorem State.placeWord_start (s : State) (w : Word) : (s.placeWord w).start = true := rfl
@[simp] theorem State.placeWord_branchTaken (s : State) (w : Word) : (s.placeWord w).branchTaken = s.branchTaken := rfl
@[simp] theorem State.placeWord_readLatch (s : State) (w : Word) : (s.placeWord w).readLatch = s.readLatch := rfl
@[simp] theorem State.placeWord_retired (s : State) (w : Word) : (s.placeWord w).retired = s.retired := rfl
@[simp] theorem State.placeWord_events (s : State) (w : Word) : (s.placeWord w).events = s.events := rfl

@[simp] theorem Snapshot.decodeFrom_regs (c : Snapshot) (w : Word) : (c.decodeFrom w).regs = c.regs := rfl
@[simp] theorem Snapshot.decodeFrom_pc (c : Snapshot) (w : Word) : (c.decodeFrom w).pc = c.pc := rfl
@[simp] theorem Snapshot.decodeFrom_inst (c : Snapshot) (w : Word) : (c.decodeFrom w).inst = c.inst := rfl
@[simp] theorem Snapshot.decodeFrom_opcode (c : Snapshot) (w : Word) : (c.decodeFrom w).opcode = wordOpcode w := rfl
@[simp] theorem Snapshot.decodeFrom_dst (c : Snapshot) (w : Word) : (c.decodeFrom w).dst = wordDst w := rfl
@[simp] theorem Snapshot.decodeFrom_src0 (c : Snapshot) (w : Word) : (c.decodeFrom w).src0 = wordSrc0 w := rfl
@[simp] theorem Snapshot.decodeFrom_src1 (c : Snapshot) (w : Word) : (c.decodeFrom w).src1 = wordSrc1 w := rfl
@[simp] theorem Snapshot.decodeFrom_immediate (c : Snapshot) (w : Word) : (c.decodeFrom w).immediate = immediateOf (wordImm16 w) := rfl
@[simp] theorem Snapshot.decodeFrom_alu0 (c : Snapshot) (w : Word) : (c.decodeFrom w).alu0 = c.alu0 := rfl
@[simp] theorem Snapshot.decodeFrom_alu1 (c : Snapshot) (w : Word) : (c.decodeFrom w).alu1 = c.alu1 := rfl
@[simp] theorem Snapshot.decodeFrom_aluout (c : Snapshot) (w : Word) : (c.decodeFrom w).aluout = c.aluout := rfl
@[simp] theorem Snapshot.decodeFrom_cycleCounter (c : Snapshot) (w : Word) : (c.decodeFrom w).cycleCounter = c.cycleCounter := rfl
@[simp] theorem Snapshot.decodeFrom_controlState (c : Snapshot) (w : Word) : (c.decodeFrom w).controlState = c.controlState := rfl

@[simp] theorem Snapshot.staged_regs (c : Snapshot) (w a b : Word) : (c.staged w a b).regs = c.regs := rfl
@[simp] theorem Snapshot.staged_pc (c : Snapshot) (w a b : Word) : (c.staged w a b).pc = c.pc := rfl
@[simp] theorem Snapshot.staged_inst (c : Snapshot) (w a b : Word) : (c.staged w a b).inst = w := rfl
@[simp] theorem Snapshot.staged_opcode (c : Snapshot) (w a b : Word) : (c.staged w a b).opcode = wordOpcode w := rfl
@[simp] theorem Snapshot.staged_dst (c : Snapshot) (w a b : Word) : (c.staged w a b).dst = wordDst w := rfl
@[simp] theorem Snapshot.staged_src0 (c : Snapshot) (w a b : Word) : (c.staged w a b).src0 = wordSrc0 w := rfl
@[simp] theorem Snapshot.staged_src1 (c : Snapshot) (w a b : Word) : (c.staged w a b).src1 = wordSrc1 w := rfl
@[simp] theorem Snapshot.staged_immediate (c : Snapshot) (w a b : Word) : (c.staged w a b).immediate = immediateOf (wordImm16 w) := rfl
@[simp] theorem Snapshot.staged_alu0 (c : Snapshot) (w a b : Word) : (c.staged w a b).alu0 = a := rfl
@[simp] theorem Snapshot.staged_alu1 (c : Snapshot) (w a b : Word) : (c.staged w a b).alu1 = b := rfl
@[simp] theorem Snapshot.staged_aluout (c : Snapshot) (w a b : Word) : (c.staged w a b).aluout = c.aluout := rfl
@[simp] theorem Snapshot.staged_cycleCounter (c : Snapshot) (w a b : Word) : (c.staged w a b).cycleCounter = c.cycleCounter := rfl
@[simp] theorem Snapshot.staged_controlState (c : Snapshot) (w a b : Word) : (c.staged w a b).controlState = c.controlState := rfl

@[simp] theorem Snapshot.setRegs_regs (c : Snapshot) (r : Vector Word 8) : (c.setRegs r).regs = r := rfl
@[simp] theorem Snapshot.setRegs_pc (c : Snapshot) (r : Vector Word 8) : (c.setRegs r).pc = c.pc := rfl
@[simp] theorem Snapshot.setRegs_inst (c : Snapshot) (r : Vector Word 8) : (c.setRegs r).inst = c.inst := rfl
@[simp] theorem Snapshot.setRegs_opcode (c : Snapshot) (r : Vector Word 8) : (c.setRegs r).opcode = c.opcode := rfl
@[simp] theorem Snapshot.setRegs_dst (c : Snapshot) (r : Vector Word 8) : (c.setRegs r).dst = c.dst := rfl
@[simp] theorem Snapshot.setRegs_src0 (c : Snapshot) (r : Vector Word 8) : (c.setRegs r).src0 = c.src0 := rfl
@[simp] theorem Snapshot.setRegs_src1 (c : Snapshot) (r : Vector Word 8) : (c.setRegs r).src1 = c.src1 := rfl
@[simp] theorem Snapshot.setRegs_immediate (c : Snapshot) (r : Vector Word 8) : (c.setRegs r).immediate = c.immediate := rfl
@[simp] theorem Snapshot.setRegs_alu0 (c : Snapshot) (r : Vector Word 8) : (c.setRegs r).alu0 = c.alu0 := rfl
@[simp] theorem Snapshot.setRegs_alu1 (c : Snapshot) (r : Vector Word 8) : (c.setRegs r).alu1 = c.alu1 := rfl
@[simp] theorem Snapshot.setRegs_aluout (c : Snapshot) (r : Vector Word 8) : (c.setRegs r).aluout = c.aluout := rfl
@[simp] theorem Snapshot.setRegs_cycleCounter (c : Snapshot) (r : Vector Word 8) : (c.setRegs r).cycleCounter = c.cycleCounter := rfl
@[simp] theorem Snapshot.setRegs_controlState (c : Snapshot) (r : Vector Word 8) : (c.setRegs r).controlState = c.controlState := rfl

@[simp] theorem Snapshot.setPc_regs (c : Snapshot) (p : Addr) : (c.setPc p).regs = c.regs := rfl
@[simp] theorem Snapshot.setPc_pc (c : Snapshot) (p : Addr) : (c.setPc p).pc = p := rfl
@[simp] theorem Snapshot.setPc_inst (c : Snapshot) (p : Addr) : (c.setPc p).inst = c.inst := rfl
@[simp] theorem Snapshot.setPc_opcode (c : Snapshot) (p : Addr) : (c.setPc p).opcode = c.opcode := rfl
@[simp] theorem Snapshot.setPc_dst (c : Snapshot) (p : Addr) : (c.setPc p).dst = c.dst := rfl
@[simp] theorem Snapshot.setPc_src0 (c : Snapshot) (p : Addr) : (c.setPc p).src0 = c.src0 := rfl
@[simp] theorem Snapshot.setPc_src1 (c : Snapshot) (p : Addr) : (c.setPc p).src1 = c.src1 := rfl
@[simp] theorem Snapshot.setPc_immediate (c : Snapshot) (p : Addr) : (c.setPc p).immediate = c.immediate := rfl
@[simp] theorem Snapshot.setPc_alu0 (c : Snapshot) (p : Addr) : (c.setPc p).alu0 = c.alu0 := rfl
@[simp] theorem Snapshot.setPc_alu1 (c : Snapshot) (p : Addr) : (c.setPc p).alu1 = c.alu1 := rfl
@[simp] theorem Snapshot.setPc_aluout (c : Snapshot) (p : Addr) : (c.setPc p).aluout = c.aluout := rfl
@[simp] theorem Snapshot.setPc_cycleCounter (c : Snapshot) (p : Addr) : (c.setPc p).cycleCounter = c.cycleCounter := rfl
@[simp] theorem Snapshot.setPc_controlState (c : Snapshot) (p : Addr) : (c.setPc p).controlState = c.controlState := rfl

@[simp] theorem Snapshot.setAluout_regs (c : Snapshot) (v : Word) : (c.setAluout v).regs = c.regs := rfl
@[simp] theorem Snapshot.setAluout_pc (c : Snapshot) (v : Word) : (c.setAluout v).pc = c.pc := rfl
@[simp] theorem Snapshot.setAluout_inst (c : Snapshot) (v : Word) : (c.setAluout v).inst = c.inst := rfl
@[simp] theorem Snapshot.setAluout_opcode (c : Snapshot) (v : Word) : (c.setAluout v).opcode = c.opcode := rfl
@[simp] theorem Snapshot.setAluout_dst (c : Snapshot) (v : Word) : (c.setAluout v).dst = c.dst := rfl
@[simp] theorem Snapshot.setAluout_src0 (c : Snapshot) (v : Word) : (c.setAluout v).src0 = c.src0 := rfl
@[simp] theorem Snapshot.setAluout_src1 (c : Snapshot) (v : Word) : (c.setAluout v).src1 = c.src1 := rfl
@[simp] theorem Snapshot.setAluout_immediate (c : Snapshot) (v : Word) : (c.setAluout v).immediate = c.immediate := rfl
@[simp] theorem Snapshot.setAluout_alu0 (c : Snapshot) (v : Word) : (c.setAluout v).alu0 = c.alu0 := rfl
@[simp] theorem Snapshot.setAluout_alu1 (c : Snapshot) (v : Word) : (c.setAluout v).alu1 = c.alu1 := rfl
@[simp] theorem Snapshot.setAluout_aluout (c : Snapshot) (v : Word) : (c.setAluout v).aluout = v := rfl
@[simp] theorem Snapshot.setAluout_cycleCounter (c : Snapshot) (v : Word) : (c.setAluout v).cycleCounter = c.cycleCounter := rfl
@[simp] theorem Snapshot.setAluout_controlState (c : Snapshot) (v : Word) : (c.setAluout v).controlState = c.controlState := rfl

@[simp] theorem State.counted_regs (s : State) : (s.counted).regs = s.cur.regs := rfl
@[simp] theorem State.counted_pc (s : State) : (s.counted).pc = s.cur.pc := rfl
@[simp] theorem State.counted_inst (s : State) : (s.counted).inst = s.cur.inst := rfl
@[simp] theorem State.counted_opcode (s : State) : (s.counted).opcode = s.cur.opcode := rfl
@[simp] theorem State.counted_dst (s : State) : (s.counted).dst = s.cur.dst := rfl
@[simp] theorem State.counted_src0 (s : State) : (s.counted).src0 = s.cur.src0 := rfl
@[simp] theorem State.counted_src1 (s : State) : (s.counted).src1 = s.cur.src1 := rfl
@[simp] theorem State.counted_immediate (s : State) : (s.counted).immediate = s.cur.immediate := rfl
@[simp] theorem State.counted_alu0 (s : State) : (s.counted).alu0 = s.cur.alu0 := rfl
@[simp] theorem State.counted_alu1 (s : State) : (s.counted).alu1 = s.cur.alu1 := rfl
@[simp] theorem State.counted_aluout (s : State) : (s.counted).aluout = s.cur.aluout := rfl
@[simp] theorem State.counted_cycleCounter (s : State) : (s.counted).cycleCounter = s.cfg.addCycles s.cur.cycleCounter 1 := rfl
@[simp] theorem State.counted_controlState (s : State) : (s.counted).controlState = s.cur.controlState := rfl

end Sys2Proof.Machine
end

