-- ==== Sys2Proof/Laws/Ops.lean ====
section
/-!
SUPPORT. What the shared operations do, once each: memory, register cells, program counter, data addresses.
-/

namespace Sys2Proof.Machine

/-! Memory. -/

theorem Memory.read_erase (fill : Word) (m : Memory) (a b : Nat) :
    Memory.read fill (m.erase a) b = if b = a then fill else Memory.read fill m b := by
  induction m with
  | nil => simp [Memory.erase, Memory.read]
  | cons c m ih =>
    unfold Memory.erase at ih ⊢
    by_cases hc : c.1 = a
    · rw [List.filter_cons_of_neg (by simp [hc]), ih]
      by_cases hb : b = a
      · simp [hb]
      · simp only [hb, if_false, Memory.read]
        rw [if_neg (by omega)]
    · rw [List.filter_cons_of_pos (by simp [hc])]
      simp only [Memory.read, ih]
      by_cases hb : b = a
      · subst hb; simp [hc]
      · simp [hb]

theorem Memory.read_insert_of_ne (fill : Word) (m : Memory) (a b : Nat) (v : Word) (h : b ≠ a) :
    Memory.read fill (m.insert a v) b = Memory.read fill m b := by
  induction m with
  | nil => simp [Memory.insert, Memory.read, Ne.symm h]
  | cons c m ih =>
    unfold Memory.insert
    split
    · simp [Memory.read, Ne.symm h]
    · simp [Memory.read, ih]

theorem Memory.read_insert_self (fill : Word) (m : Memory) (a : Nat) (v : Word) (h : ∀ c ∈ m, c.1 ≠ a) :
    Memory.read fill (m.insert a v) a = v := by
  induction m with
  | nil => simp [Memory.insert, Memory.read]
  | cons c m ih =>
    unfold Memory.insert
    split
    · simp [Memory.read]
    · simp [Memory.read, h c (by simp), ih fun d hd => h d (by simp [hd])]

theorem Memory.ne_of_mem_erase {m : Memory} {a : Nat} {c : Nat × Word} (h : c ∈ m.erase a) : c.1 ≠ a := by
  simpa using (List.mem_filter.mp h).2

/-- A read after a write: the written address gives the value, every other address is left alone. -/
theorem Memory.read_write (fill : Word) (m : Memory) (a b : Nat) (v : Word) :
    Memory.read fill (m.write fill a v) b = if b = a then v else Memory.read fill m b := by
  unfold Memory.write
  split
  next hv => rw [Memory.read_erase, hv]
  next hv =>
    split
    next hb => subst hb; exact Memory.read_insert_self _ _ _ _ fun _ hc => Memory.ne_of_mem_erase hc
    next hb => rw [Memory.read_insert_of_ne _ _ _ _ _ hb, Memory.read_erase, if_neg hb]

theorem Memory.mem_insert {m : Memory} {a : Nat} {v : Word} {c : Nat × Word} (h : c ∈ m.insert a v) :
    c = (a, v) ∨ c ∈ m := by
  induction m with
  | nil => simpa [Memory.insert] using h
  | cons d m ih =>
    unfold Memory.insert at h
    split at h
    · simpa using h
    · rcases List.mem_cons.mp h with h | h
      · exact .inr (by simp [h])
      · rcases ih h with h | h
        · exact .inl h
        · exact .inr (by simp [h])

theorem Memory.sorted_insert {m : Memory} {a : Nat} {v : Word} (h : m.Pairwise (fun c d => c.1 < d.1))
    (ha : ∀ c ∈ m, c.1 ≠ a) : (m.insert a v).Pairwise (fun c d => c.1 < d.1) := by
  induction m with
  | nil => simp [Memory.insert]
  | cons d m ih =>
    obtain ⟨hd, hm⟩ := List.pairwise_cons.mp h
    unfold Memory.insert
    split
    next hlt =>
      refine List.pairwise_cons.mpr ⟨?_, h⟩
      intro c hc
      rcases List.mem_cons.mp hc with rfl | hc
      · exact hlt
      · exact Nat.lt_trans hlt (hd c hc)
    next hge =>
      have hne := ha d (by simp)
      refine List.pairwise_cons.mpr ⟨?_, ih hm fun c hc => ha c (by simp [hc])⟩
      intro c hc
      rcases Memory.mem_insert hc with rfl | hc
      · show d.1 < a
        omega
      · exact hd c hc

/-- A write keeps the canonical form. -/
theorem Memory.wf_write {fill : Word} {m : Memory} (a : Addr) (v : Word) (h : m.wf fill) :
    Memory.wf fill (m.write fill a.toNat v) := by
  obtain ⟨hs, hc⟩ := h
  have hse : (m.erase a.toNat).Pairwise (fun c d => c.1 < d.1) := hs.filter _
  have hce : ∀ c ∈ m.erase a.toNat, c.1 < memWords ∧ c.2 ≠ fill :=
    fun c hm => hc c (List.mem_of_mem_filter hm)
  unfold Memory.write
  split
  next => exact ⟨hse, hce⟩
  next hv =>
    refine ⟨Memory.sorted_insert hse fun _ hm => Memory.ne_of_mem_erase hm, fun c hm => ?_⟩
    rcases Memory.mem_insert hm with rfl | hm
    · exact ⟨a.isLt, hv⟩
    · exact hce c hm

theorem Memory.read_lt_head (fill : Word) (m : Memory) (a : Nat) (h : ∀ c ∈ m, a < c.1) :
    Memory.read fill m a = fill := by
  induction m with
  | nil => rfl
  | cons c m ih =>
    have := h c (by simp)
    simp only [Memory.read]
    rw [if_neg (by omega), ih fun d hd => h d (by simp [hd])]

/-- A write of a word read after it, at the level of the state. -/
theorem State.readWord_writeWord (s : State) (a b : Addr) (v : Word) :
    (s.writeWord a v).readWord b = if b = a then v else s.readWord b := by
  simp only [State.readWord, State.writeWord_mem, State.writeWord_cfg, Memory.read_write, BitVec.toNat_inj]

/-- Two states with the same memory and the same filling word read alike. -/
theorem State.readWord_congr {s t : State} (hm : t.mem = s.mem) (hf : t.cfg = s.cfg) (a : Addr) :
    t.readWord a = s.readWord a := by
  simp [State.readWord, hm, hf]

/-! Register cells. -/

theorem cell_setCell_self (r : Vector Word 8) (i : RegIx) (v : Word) : cell (setCell r i v) i = v := by
  simp [cell, setCell]

theorem cell_setCell_of_ne (r : Vector Word 8) (i j : RegIx) (v : Word) (h : j ≠ i) :
    cell (setCell r i v) j = cell r j := by
  have : i.toNat ≠ j.toNat := fun e => h (BitVec.eq_of_toNat_eq e.symm)
  simp only [cell, setCell]
  rw [Vector.getElem_set_ne _ _ this]

/-- The cells are equal when every index reads alike. -/
theorem cells_ext {r q : Vector Word 8} (h : ∀ i : RegIx, cell r i = cell q i) : r = q := by
  ext i hi
  have := h (BitVec.ofNat 3 i)
  simp only [cell, BitVec.toNat_ofNat, Nat.mod_eq_of_lt (show i < 2 ^ 3 from hi)] at this
  rw [this]

/-! Cycle counts. -/

/-- Counting twice is counting once by the sum. -/
theorem Config.addCycles_addCycles (c : Config) (n j k : Nat) :
    c.addCycles (c.addCycles n j) k = c.addCycles n (j + k) := by
  cases h : c.cycw <;> simp [Config.addCycles, h, Nat.add_assoc]

/-! Data addresses and targets. -/

/-- The target of a sign-extended immediate is the raw field. -/
theorem targetOf_immediateOf (k : BitVec 16) : targetOf (immediateOf k) = k := by
  apply BitVec.eq_of_getLsbD_eq
  intro i hi
  simp only [targetOf, immediateOf, BitVec.getLsbD_extractLsb', BitVec.getLsbD_signExtend]
  simp [hi]
  omega

theorem dataAddress_truncate {c : Config} (h : c.dataAddrOor = .truncate) (v : Word) :
    dataAddress c v = some (v.extractLsb' 0 16) := by
  simp [dataAddress, h]

end Sys2Proof.Machine
end

