-- ==== Sys2Proof/Laws/PerInstr.lean ====
section
/-!
SUPPORT. The family EncodedFields: the opcode and the fields the decoder extracts from an instruction's word are the
instruction's own, under every map.
-/

namespace Sys2Proof.Laws

/-- What the family says of one instruction. -/
def EncodedFields.Statement (i : Instr) : Prop :=
  ∀ m : OpMap, wordOpcode (encode m i) = m.code i.op ∧ wordFields (encode m i) = i.fields

/-- The reason, the same for every instruction: one format. -/
theorem EncodedFields.all (i : Instr) : EncodedFields.Statement i := fun _ =>
  ⟨wordOpcode_encodeFields _ _, wordFields_encodeFields _ _⟩

theorem EncodedFields.add (f : Fields) : EncodedFields.Statement (.add f) := EncodedFields.all _
theorem EncodedFields.sub (f : Fields) : EncodedFields.Statement (.sub f) := EncodedFields.all _
theorem EncodedFields.lsf (f : Fields) : EncodedFields.Statement (.lsf f) := EncodedFields.all _
theorem EncodedFields.rsf (f : Fields) : EncodedFields.Statement (.rsf f) := EncodedFields.all _
theorem EncodedFields.and (f : Fields) : EncodedFields.Statement (.and f) := EncodedFields.all _
theorem EncodedFields.or (f : Fields) : EncodedFields.Statement (.or f) := EncodedFields.all _
theorem EncodedFields.xor (f : Fields) : EncodedFields.Statement (.xor f) := EncodedFields.all _
theorem EncodedFields.lhi (f : Fields) : EncodedFields.Statement (.lhi f) := EncodedFields.all _
theorem EncodedFields.ld (f : Fields) : EncodedFields.Statement (.ld f) := EncodedFields.all _
theorem EncodedFields.st (f : Fields) : EncodedFields.Statement (.st f) := EncodedFields.all _
theorem EncodedFields.jlt (f : Fields) : EncodedFields.Statement (.jlt f) := EncodedFields.all _
theorem EncodedFields.jle (f : Fields) : EncodedFields.Statement (.jle f) := EncodedFields.all _
theorem EncodedFields.jeq (f : Fields) : EncodedFields.Statement (.jeq f) := EncodedFields.all _
theorem EncodedFields.jne (f : Fields) : EncodedFields.Statement (.jne f) := EncodedFields.all _
theorem EncodedFields.jin (f : Fields) : EncodedFields.Statement (.jin f) := EncodedFields.all _
theorem EncodedFields.hlt (f : Fields) : EncodedFields.Statement (.hlt f) := EncodedFields.all _

end Sys2Proof.Laws
end

