-- ==== Sys2Proof/Laws/Sequencer.lean ====
section
/-!
SUPPORT. What a tick can do, once per control state, and the small lemmas of the functions a tick is made of.
-/

namespace Sys2Proof.Machine

/-- What EXECUTE0 can do. -/
theorem tickExecute0_cases (s : State) :
    (s.op = some .ld ∧ dataAddress s.cfg s.cur.alu1 = none
      ∧ tickExecute0 s = .refused (.dataAddressOutOfRange s.cur.alu1))
    ∨ (∃ ea, s.op = some .ld ∧ dataAddress s.cfg s.cur.alu1 = some ea
      ∧ tickExecute0 s = .next ((s.issueRead ea).commit { s.counted with controlState := .execute1 }))
    ∨ (s.op ≠ some .ld
      ∧ tickExecute0 s = .next (s.commit { s.counted with
          aluout := (alu s.cfg s.op s.cur.alu0 s.cur.alu1).getD s.cur.aluout, controlState := .execute1 })) := by
  by_cases h : s.op = some .ld
  · cases hd : dataAddress s.cfg s.cur.alu1 with
    | none => exact .inl ⟨h, rfl, by simp [tickExecute0, h, hd]⟩
    | some ea =>
      refine .inr (.inl ⟨ea, h, rfl, ?_⟩)
      simp only [tickExecute0, h, hd]
      rfl
  · refine .inr (.inr ⟨h, ?_⟩)
    unfold tickExecute0
    split <;> simp_all

/-- What EXECUTE1 does beside the snapshot and the flag. -/
theorem committedEffects_cases (s : State) :
    (s.op = some .st ∧ dataAddress s.cfg s.cur.alu1 = none
      ∧ s.committedEffects = .refused (.dataAddressOutOfRange s.cur.alu1))
    ∨ (∃ ea, s.op = some .st ∧ dataAddress s.cfg s.cur.alu1 = some ea
      ∧ s.committedEffects = .next (s.issueWrite ea s.cur.alu0))
    ∨ (s.op = some .hlt ∧ s.committedEffects = .next s.haltEvents)
    ∨ (s.op ≠ some .st ∧ s.op ≠ some .hlt ∧ s.committedEffects = .next s) := by
  by_cases h : s.op = some .st
  · cases hd : dataAddress s.cfg s.cur.alu1 with
    | none => exact .inl ⟨h, rfl, by simp [State.committedEffects, h, hd]⟩
    | some ea => exact .inr (.inl ⟨ea, h, rfl, by simp [State.committedEffects, h, hd]⟩)
  · by_cases hh : s.op = some .hlt
    · exact .inr (.inr (.inl ⟨hh, by simp [State.committedEffects, hh]⟩))
    · refine .inr (.inr (.inr ⟨h, hh, ?_⟩))
      unfold State.committedEffects
      split <;> simp_all

/-- The state EXECUTE1 leaves when its effects beside the snapshot lead to `t`. -/
def State.executed (s t : State) : State :=
  ((t.setFlag s.resolvedFlag).emitTrace s.op s.cur s.committedRegs).commit
    { s.counted with regs := s.committedRegs, pc := s.resolvedPc, controlState := afterExecute1 s.op }

/-- What EXECUTE1 can do. -/
theorem tickExecute1_cases (s : State) :
    (s.op = some .st ∧ dataAddress s.cfg s.cur.alu1 = none
      ∧ tickExecute1 s = .refused (.dataAddressOutOfRange s.cur.alu1))
    ∨ (∃ ea, s.op = some .st ∧ dataAddress s.cfg s.cur.alu1 = some ea
      ∧ tickExecute1 s = .next (s.executed (s.issueWrite ea s.cur.alu0)))
    ∨ (s.op = some .hlt ∧ tickExecute1 s = .next (s.executed s.haltEvents))
    ∨ (s.op ≠ some .st ∧ s.op ≠ some .hlt ∧ tickExecute1 s = .next (s.executed s)) := by
  unfold tickExecute1
  rcases committedEffects_cases s with ⟨h, hd, he⟩ | ⟨ea, h, hd, he⟩ | ⟨h, he⟩ | ⟨h, hh, he⟩
  · exact .inl ⟨h, hd, by rw [he]⟩
  · exact .inr (.inl ⟨ea, h, hd, by rw [he]; rfl⟩)
  · exact .inr (.inr (.inl ⟨h, by rw [he]; rfl⟩))
  · exact .inr (.inr (.inr ⟨h, hh, by rw [he]; rfl⟩))

/-- A tick by control state. -/
theorem tick_idle {s : State} (h : s.cur.controlState = .idle) : tick s = .next (tickIdle s) := by simp [tick, h]
theorem tick_fetch0 {s : State} (h : s.cur.controlState = .fetch0) : tick s = .next (tickFetch0 s) := by simp [tick, h]
theorem tick_fetch1 {s : State} (h : s.cur.controlState = .fetch1) : tick s = .next (tickFetch1 s) := by simp [tick, h]
theorem tick_decode0 {s : State} (h : s.cur.controlState = .decode0) : tick s = .next (tickDecode0 s) := by
  simp [tick, h]
theorem tick_decode1 {s : State} (h : s.cur.controlState = .decode1) : tick s = .next (tickDecode1 s) := by
  simp [tick, h]
theorem tick_execute0 {s : State} (h : s.cur.controlState = .execute0) : tick s = tickExecute0 s := by simp [tick, h]
theorem tick_execute1 {s : State} (h : s.cur.controlState = .execute1) : tick s = tickExecute1 s := by simp [tick, h]

/-- Two sources, or LHI's destination and immediate. -/
theorem selectOperands_eq (o : Option Op) (r : Vector Word 8) (imm : Word) (d a b : RegIx) :
    selectOperands o r imm d a b
      = (opnd r imm (if o = some .lhi then d else a), if o = some .lhi then imm else opnd r imm b) := by
  rcases o with _ | o
  · rfl
  · cases o <;> rfl

/-- The step in FETCH0 and elsewhere. -/
theorem step_fetch0 {s : State} (h : s.cur.controlState = .fetch0) : step s = runWindow s := by simp [step, h]

theorem step_of_ne_fetch0 {s : State} (h : s.cur.controlState ≠ .fetch0) : step s = tick s := by
  unfold step
  split
  next h' => exact absurd h' h
  all_goals rfl

/-- Ticks one after another. -/
theorem ticks_succ_of_next {s t : State} (k : Nat) (h : tick s = .next t) : ticks (k + 1) s = ticks k t := by
  simp [ticks, h]

/-! The ports, by the level of the reset signal. -/

@[simp] theorem State.issuedOp_reset (s : State) : s.issuedOp true = .none := rfl
@[simp] theorem State.issuedOp_run (s : State) : s.issuedOp false = s.memOp := rfl
@[simp] theorem State.completing_reset (s : State) : s.completing true = false := rfl
@[simp] theorem State.halting_reset (s : State) : s.halting true = false := rfl
@[simp] theorem ports_diag (b : Bool) (s : State) : (ports b s).diag = s.cur := rfl

theorem State.completing_iff (b : Bool) (s : State) :
    s.completing b = true ↔ b = false ∧ s.cur.controlState = .execute1 := by
  simp [State.completing]

theorem State.halting_iff (b : Bool) (s : State) :
    s.halting b = true ↔ b = false ∧ s.cur.controlState = .execute1 ∧ s.op = some .hlt := by
  simp [State.halting, State.completing, and_assoc]

/-- The read port shows an address exactly when that read is issued. -/
theorem ports_memRead_eq_some (b : Bool) (s : State) (a : Addr) :
    (ports b s).memRead = some a ↔ s.issuedOp b = .issueRead a := by
  simp only [ports]
  split <;> simp_all

/-- The write port shows an address and a word exactly when that write is issued. -/
theorem ports_memWrite_eq_some (b : Bool) (s : State) (a : Addr) (v : Word) :
    (ports b s).memWrite = some (a, v) ↔ s.issuedOp b = .issueWrite a v := by
  simp only [ports]
  split <;> simp_all

end Sys2Proof.Machine
end

