-- ==== Sys2Proof/Laws/Window.lean ====
section
/-!
SUPPORT. What the shared window operations do, once each, in the terms of Safety.lean.
-/

namespace Sys2Proof.Machine

/-- The opening and the retirement of the window of a word record it, whatever happens between them. -/
theorem retire_windowOf {s u : State} {o : Option Op} {w : Word} {c n : Snapshot} {st : ControlState}
    (hcfg : u.cfg = s.cfg) (hret : u.retired = s.retired)
    (hc : c.cycleCounter = s.cur.cycleCounter)
    (hn : n.inst = w ∧ n.opcode = wordOpcode w ∧ n.dst = wordDst w ∧ n.src0 = wordSrc0 w ∧ n.src1 = wordSrc1 w
      ∧ n.immediate = immediateOf (wordImm16 w)) :
    WindowOf w s (u.retire o c n st) where
  cfg := hcfg
  committed := rfl
  inst := hn.1
  opcode := hn.2.1
  dst := hn.2.2.1
  src0 := hn.2.2.2.1
  src1 := hn.2.2.2.2.1
  immediate := hn.2.2.2.2.2
  cycles := by simp [hcfg, hc]
  retired := by simp [hret]

/-- The trace record of a retirement is the window's. -/
theorem retire_traces {s u : State} {o : Option Op} {c n : Snapshot} {st : ControlState}
    (hret : u.retired = s.retired) (hpc : c.pc = s.cur.pc)
    (hn : n.inst = c.inst ∧ n.opcode = c.opcode ∧ n.dst = c.dst ∧ n.src0 = c.src0 ∧ n.src1 = c.src1
      ∧ n.immediate = c.immediate) :
    Traces s (u.retire o c n st) (traceRecord u.retired o c n.regs) where
  index := hret
  pc := hpc
  inst := hn.1.symm
  opcode := hn.2.1.symm
  dst := hn.2.2.1.symm
  src0 := hn.2.2.2.1.symm
  src1 := hn.2.2.2.2.1.symm
  immediate := hn.2.2.2.2.2.symm
  regs := rfl

/-- A retirement into FETCH0 goes on. -/
theorem retire_goesOn {s u : State} {o : Option Op} {c n : Snapshot}
    (hstart : u.start = s.start) (hev : u.events = s.events)
    (hret : u.retired = s.retired) (hpc : c.pc = s.cur.pc)
    (hn : n.inst = c.inst ∧ n.opcode = c.opcode ∧ n.dst = c.dst ∧ n.src0 = c.src0 ∧ n.src1 = c.src1
      ∧ n.immediate = c.immediate) :
    GoesOn s (u.retire o c n .fetch0) :=
  ⟨rfl, hstart, _, by simp only [State.retire_events, hev], retire_traces hret hpc hn⟩

/-- The window of an instruction that writes `aluout` into its destination. -/
theorem aluWindow_spec (i : Instr) (s : State) (a b r : Word) :
    ∃ t, s.aluWindow i.op i.fields a b r = .next t ∧ WritesResult i s t r ∧ Stages t a b := by
  refine ⟨_, rfl, ?_, rfl, rfl⟩
  exact
    { window := retire_windowOf rfl rfl rfl ⟨rfl, rfl, rfl, rfl, rfl, rfl⟩
      goesOn := retire_goesOn rfl rfl rfl rfl ⟨rfl, rfl, rfl, rfl, rfl, rfl⟩
      written := cell_setCell_self _ _ _
      kept := fun j hj => cell_setCell_of_ne _ _ _ _ hj
      aluout := rfl
      pc := rfl
      memory := fun _ => rfl
      branchTaken := rfl
      readLatch := rfl }

/-- The window of a branch-family instruction whose result is 1 exactly when `taken` holds, and else 0. -/
theorem branchWindow_spec (i : Instr) (s : State) (r : Word) (taken : Prop)
    (h1 : taken → r = 1) (h0 : ¬ taken → r = 0) :
    ∃ t, s.branchWindow i.op i.fields r = .next t ∧ Branches i s t taken
      ∧ Stages t (s.operand i.fields i.fields.src0) (s.operand i.fields i.fields.src1)
      ∧ (¬ taken → t.cur.regs = s.cur.regs) := by
  unfold State.branchWindow
  by_cases ht : taken
  · rw [if_pos (h1 ht)]
    refine ⟨_, rfl, ?_, ⟨rfl, rfl⟩, fun h => absurd ht h⟩
    exact
      { window := retire_windowOf rfl rfl rfl ⟨rfl, rfl, rfl, rfl, rfl, rfl⟩
        goesOn := retire_goesOn rfl rfl rfl rfl ⟨rfl, rfl, rfl, rfl, rfl, rfl⟩
        pcTaken := fun _ => by
          show targetOf (immediateOf (wordImm16 (encodeFields _ i.fields))) = _
          rw [targetOf_immediateOf, wordImm16_encodeFields]
        pcNot := fun h => absurd ht h
        linkTaken := fun _ => by
          show (cell (setCell _ linkIx (linkOf _)) 7).toNat = _
          rw [show (7 : RegIx) = linkIx from rfl, cell_setCell_self]
          have : s.cur.pc.toNat < 2 ^ 32 := Nat.lt_trans s.cur.pc.isLt (by decide)
          simpa [linkOf] using Nat.mod_eq_of_lt this
        linkNot := fun h => absurd ht h
        kept := fun j hj => cell_setCell_of_ne _ _ _ _ hj
        aluoutTaken := h1
        aluoutNot := h0
        flag := ⟨fun _ => ht, fun _ => rfl⟩
        memory := fun _ => rfl
        readLatch := rfl }
  · rw [if_neg (by rw [h0 ht]; decide)]
    refine ⟨_, rfl, ?_, ⟨rfl, rfl⟩, fun _ => rfl⟩
    exact
      { window := retire_windowOf rfl rfl rfl ⟨rfl, rfl, rfl, rfl, rfl, rfl⟩
        goesOn := retire_goesOn rfl rfl rfl rfl ⟨rfl, rfl, rfl, rfl, rfl, rfl⟩
        pcTaken := fun h => absurd h ht
        pcNot := fun _ => rfl
        linkTaken := fun h => absurd h ht
        linkNot := fun _ => rfl
        kept := fun _ _ => rfl
        aluoutTaken := h1
        aluoutNot := h0
        flag := ⟨fun h => absurd h (by simp), fun h => absurd h ht⟩
        memory := fun _ => rfl
        readLatch := rfl }

/-- The relation's result is 1 where the relation holds and 0 where it does not. -/
theorem relationResult_spec {b : Bool} {p : Prop} (h : b = true ↔ p) :
    (p → relationResult b = 1) ∧ (¬ p → relationResult b = 0) := by
  unfold relationResult
  constructor
  · intro hp
    rw [if_pos (h.mpr hp)]
  · intro hp
    rw [if_neg fun hb => hp (h.mp hb)]

end Sys2Proof.Machine
end

