-- ==== Sys2Proof/Tests/Slice0.lean ====
section
/-!
SUPPORT. Small tests: words written out from the encoding, the checks of WellFormed refusing ill-formed terms, one step
each on vectors of spec/95_test_vectors.md, and the witnesses that the hypotheses of the statements can be met.
-/

namespace Sys2Proof.Tests

open Sys2Proof Sys2Proof.Machine

/-! Decoding: words put together bit by bit from spec/30_encoding.md R45 and the numbers of R51. -/

theorem test_decode_add : decode OpMap.standard 0b00_00000_010_000_001_0000000000000101 = .ok (.add ⟨0, 2, 0, 1, 5⟩) := by decide
theorem test_decode_sub : decode OpMap.standard 0b00_00001_100_010_011_0000000000000000 = .ok (.sub ⟨0, 4, 2, 3, 0⟩) := by decide
theorem test_decode_lsf : decode OpMap.standard 0b00_00010_100_010_001_0000000000000100 = .ok (.lsf ⟨0, 4, 2, 1, 4⟩) := by decide
theorem test_decode_rsf : decode OpMap.standard 0b00_00011_100_010_001_0000000000000100 = .ok (.rsf ⟨0, 4, 2, 1, 4⟩) := by decide
theorem test_decode_and : decode OpMap.standard 0b00_00100_100_010_001_0000000011111111 = .ok (.and ⟨0, 4, 2, 1, 0xFF⟩) := by decide
theorem test_decode_or : decode OpMap.standard 0b00_00101_100_010_001_1000000000000000 = .ok (.or ⟨0, 4, 2, 1, 0x8000⟩) := by decide
theorem test_decode_xor : decode OpMap.standard 0b00_00110_100_010_001_1111111111111111 = .ok (.xor ⟨0, 4, 2, 1, 0xFFFF⟩) := by decide
theorem test_decode_lhi : decode OpMap.standard 0b00_00111_010_000_000_0001001000110100 = .ok (.lhi ⟨0, 2, 0, 0, 0x1234⟩) := by decide
theorem test_decode_ld : decode OpMap.standard 0b00_01000_100_000_001_0000000001100100 = .ok (.ld ⟨0, 4, 0, 1, 100⟩) := by decide
theorem test_decode_st : decode OpMap.standard 0b00_01001_000_010_011_0000000000000000 = .ok (.st ⟨0, 0, 2, 3, 0⟩) := by decide
theorem test_decode_jlt : decode OpMap.standard 0b00_10000_000_010_011_0000000000100000 = .ok (.jlt ⟨0, 0, 2, 3, 0x20⟩) := by decide
theorem test_decode_jle : decode OpMap.standard 0b00_10001_000_010_011_0000000000100000 = .ok (.jle ⟨0, 0, 2, 3, 0x20⟩) := by decide
theorem test_decode_jeq : decode OpMap.standard 0b00_10010_000_010_001_0000000000100000 = .ok (.jeq ⟨0, 0, 2, 1, 0x20⟩) := by decide
theorem test_decode_jne : decode OpMap.standard 0b00_10011_000_010_011_0000000000000010 = .ok (.jne ⟨0, 0, 2, 3, 2⟩) := by decide
theorem test_decode_jin : decode OpMap.standard 0b00_10100_000_000_000_0000000000100000 = .ok (.jin ⟨0, 0, 0, 0, 0x20⟩) := by decide
theorem test_decode_hlt : decode OpMap.standard 0b00_11000_000_000_000_0000000000000000 = .ok (.hlt ⟨0, 0, 0, 0, 0⟩) := by decide
/-- Bits 31:30 are in no field (R46). -/
theorem test_decode_unused_bits : decode OpMap.standard 0b11_00000_010_000_001_0000000000000101 = .ok (.add ⟨3, 2, 0, 1, 5⟩) := by decide
/-- An opcode with no instruction is rejected by name (R53). -/
theorem test_decode_unrecognised : decode OpMap.standard 0x14000000 = .error (.unrecognised 10) := by decide
/-- The word of program P4 in spec/95_test_vectors.md. -/
theorem test_encode_st : encode OpMap.standard (.st ⟨0, 0, 6, 1, 0x14⟩) = 0x12310014 := by decide
theorem test_table_word : decodeTableWord 32 0x30000000 = some (.hlt ⟨0, 0, 0, 0, 0⟩) := by decide

/-! The checks of WellFormed, each refusing an ill-formed term. -/

/-- A map that gives SUB the number of ADD. -/
def clashing : OpMap := { OpMap.standard with sub := 0 }

theorem test_map_standard : OpMap.standard.Injective := by decide
theorem test_map_clashing_refused : ¬ clashing.Injective := by decide
theorem test_instr_well_formed : Instr.WellFormed OpMap.standard (.sub ⟨0, 1, 2, 3, 4⟩) := by decide
theorem test_instr_clashing_refused : ¬ Instr.WellFormed clashing (.sub ⟨0, 1, 2, 3, 4⟩) := by decide
theorem test_canonical : Instr.canonical (.ld ⟨0, 4, 0, 3, 0⟩) = true := by decide
theorem test_canonical_unused_refused : Instr.canonical (.ld ⟨1, 4, 0, 3, 0⟩) = false := by decide
theorem test_canonical_dst_refused : Instr.canonical (.jlt ⟨0, 7, 2, 3, 0x20⟩) = false := by decide
theorem test_canonical_src0_refused : Instr.canonical (.ld ⟨0, 4, 5, 0, 0⟩) = false := by decide
theorem test_canonical_src1_refused : Instr.canonical (.lhi ⟨0, 2, 0, 4, 0⟩) = false := by decide
theorem test_canonical_imm_refused : Instr.canonical (.add ⟨0, 4, 2, 3, 9⟩) = false := by decide
theorem test_memory_unsorted_refused : ¬ Memory.wf 0 [(5, 1), (4, 1)] := by decide
theorem test_memory_fill_refused : ¬ Memory.wf 7 [(5, 7)] := by decide
theorem test_memory_range_refused : ¬ Memory.wf 0 [(65536, 1)] := by decide

/-! One step each, on vectors of spec/95_test_vectors.md section 3. -/

/-- The state after reset with a configuration, cells and `pc`. -/
def start (cfg : Config) (cells : List (RegIx × Word)) (pc : Addr) : State :=
  let c := { Snapshot.zero with regs := cells.foldl (fun r p => setCell r p.1 p.2) Snapshot.zero.regs, pc := pc }
  { State.reset with cfg := cfg }.commit c

/-- That state with a word placed at `pc`. -/
def placed (cells : List (RegIx × Word)) (pc : Addr) (w : Nat) : State :=
  (start Config.standard cells pc).withFetchWord 32 w

/-- What one step leads to has a property. -/
def steps (s : State) (p : State → Bool) : Bool :=
  match step s with
  | .next t => p t
  | .fault _ | .refused _ => false

/-- A1 -/
theorem test_add_wraps : steps (placed [(2, 0x7FFFFFFF), (3, 1)] 0 0x01130000)
    (fun t => cell t.cur.regs 4 == 0x80000000 && t.cur.pc == 1) = true := by decide
/-- A4 -/
theorem test_add_immediate_twice : steps (placed [] 0 0x01098000)
    (fun t => cell t.cur.regs 4 == 0xFFFF0000) = true := by decide
/-- A7 -/
theorem test_sub_negates : steps (placed [] 0 0x03018000) (fun t => cell t.cur.regs 4 == 0x8000) = true := by decide
/-- S1 -/
theorem test_lsf_shifts_right : steps (placed [(2, 0x80000001)] 0 0x05110004)
    (fun t => cell t.cur.regs 4 == 0x08000000) = true := by decide
/-- S1 under RSHIFT_FILL = sign, section 4 -/
theorem test_lsf_sign_fill :
    steps ((start { Config.standard with rshiftFill := .sign } [(2, 0x80000001)] 0).withFetchWord 32 0x05110004)
      (fun t => cell t.cur.regs 4 == 0xF8000000) = true := by decide
/-- S2 -/
theorem test_rsf_shifts_left : steps (placed [(2, 0x80000001)] 0 0x07110004)
    (fun t => cell t.cur.regs 4 == 0x10) = true := by decide
/-- S9 under SHIFT_OOR = mod32, section 4 -/
theorem test_rsf_mod32 :
    steps ((start { Config.standard with shiftOor := .mod32 } [(2, 0xFFFFFFFF), (3, 0x21)] 0).withFetchWord 32 0x07130000)
      (fun t => cell t.cur.regs 4 == 0xFFFFFFFE) = true := by decide
/-- L2 -/
theorem test_and_sign_extended_mask : steps (placed [(2, 0x12345678)] 0 0x0911FF00)
    (fun t => cell t.cur.regs 4 == 0x12345600) = true := by decide
/-- L3 -/
theorem test_or_sets_upper_half : steps (placed [(2, 0x12345678)] 0 0x0B118000)
    (fun t => cell t.cur.regs 4 == 0xFFFFD678) = true := by decide
/-- L5 -/
theorem test_xor_complements : steps (placed [(2, 0x12345678)] 0 0x0D11FFFF)
    (fun t => cell t.cur.regs 4 == 0xEDCBA987) = true := by decide
/-- H3 -/
theorem test_lhi_ignores_sources : steps (placed [(2, 0xFFFFFFFF), (3, 0x11111111)] 0 0x0E9C8000)
    (fun t => cell t.cur.regs 2 == 0x8000FFFF) = true := by decide
/-- H5 -/
theorem test_lhi_reads_immediate_for_index_1 : steps (placed [(1, 0x55)] 0 0x0E401234)
    (fun t => cell t.cur.regs 1 == 0x12341234) = true := by decide
/-- M5 -/
theorem test_ld_own_word : steps (placed [] 9 0x11010009)
    (fun t => cell t.cur.regs 4 == 0x11010009 && t.cur.pc == 10) = true := by decide
/-- M8 -/
theorem test_st_cuts_address : steps (placed [(2, 0x11223344), (3, 0xFFFF0064)] 0 0x12130000)
    (fun t => t.readWord 0x64 == 0x11223344) = true := by decide
/-- M8 under DATA_ADDR_OOR = refuse, section 4 -/
theorem test_st_refused :
    steps ((start { Config.standard with dataAddrOor := .refuse } [(3, 0xFFFF0064)] 0).withFetchWord 32 0x12130000)
      (fun _ => true) = false := by decide
/-- B3 -/
theorem test_jlt_signed : steps (placed [(2, 0xFFFFFFFF)] 0x10 0x20130020)
    (fun t => t.cur.pc == 0x20 && cell t.cur.regs 7 == 0x10) = true := by decide
/-- B16 -/
theorem test_jlt_ignores_dst : steps (placed [(2, 1), (3, 2), (7, 0x55)] 0x10 0x21D30020)
    (fun t => cell t.cur.regs 7 == 0x10) = true := by decide
/-- B6 -/
theorem test_jle_not_taken : steps (placed [(2, 12), (3, 5)] 0x10 0x22130020)
    (fun t => t.cur.pc == 0x11 && cell t.cur.regs 7 == 0) = true := by decide
/-- B14 -/
theorem test_jeq_reads_old_link : steps (placed [(7, 0x10)] 0x11 0x24390010)
    (fun t => t.cur.pc == 0x10 && cell t.cur.regs 7 == 0x11) = true := by decide
/-- B15 -/
theorem test_jne_wraps_pc : steps (placed [] 0xFFFF 0x26000020) (fun t => t.cur.pc == 0) = true := by decide
/-- B12 -/
theorem test_jin_ignores_fields : steps (placed [(2, 9), (3, 9), (7, 0x99)] 0x1234 0x28D2FFFF)
    (fun t => t.cur.pc == 0xFFFF && cell t.cur.regs 7 == 0x1234 && cell t.cur.regs 3 == 9) = true := by decide
/-- Z2 -/
theorem test_hlt : steps (placed [(5, 1)] 0xFFFF 0x3177BEEF)
    (fun t => t.cur.pc == 0 && t.cur.controlState == .idle && !t.start && t.events.length == 3) = true := by decide
/-- Z5 -/
theorem test_unrecognised : steps (placed [(7, 6)] 8 0xFFFFFFFF)
    (fun t => t.cur.pc == 9 && t.cur.alu0 == 6 && t.cur.aluout == 0 && t.cur.cycleCounter == 6) = true := by decide

/-! Witnesses: the hypotheses of the statements of Certificates/Slice0/Obligations.lean can be met. -/

/-- A state in a control state with a decoded opcode, `alu1`, `aluout` and data address setting. -/
def midway (st : ControlState) (op : Code) (alu1 aluout : Word) (oor : DataAddrOor) : State :=
  let c := { Snapshot.zero with controlState := st, opcode := op, alu1 := alu1, aluout := aluout, immediate := 0x20 }
  { State.reset with cfg := { Config.standard with dataAddrOor := oor }, start := true }.commit c

/-- A state in FETCH0 under given parameters, cells x[2] and x[3], and a word at `pc` = 0. -/
def fetching (cfg : Config) (x2 x3 : Word) (w : Nat) : State := (start cfg [(2, x2), (3, x3)] 0).withFetchWord 32 w

/-- Fields that name x[2] and x[3] as sources and 4 as destination. -/
def f23 : Fields := ⟨0, 4, 2, 3, 0⟩

theorem witness_EncodeOfDecode : decode OpMap.standard 0xC0810005 = .ok (.add ⟨3, 2, 0, 1, 5⟩) := by decide
theorem witness_EncodingFormula : (Instr.add f23).fields.unused = 0 := by decide
theorem witness_LegalMap_refused :
    OpMap.standard.Injective ∧ ∀ o ∈ Op.all, OpMap.standard.code o ≠ (0x14000000 : Word).extractLsb' 25 5 := by decide
/-- The fields differ wherever LD ignores them. -/
theorem witness_IgnoredFields :
    let i : Instr := .ld ⟨0, 4, 0, 3, 0⟩
    let j : Instr := .ld ⟨3, 4, 5, 3, 9⟩
    i.op = j.op ∧ (i.ignored.dst = false → i.fields.dst = j.fields.dst)
      ∧ (i.ignored.src0 = false → i.fields.src0 = j.fields.src0)
      ∧ (i.ignored.src1 = false → i.fields.src1 = j.fields.src1)
      ∧ (i.ignored.imm16 = false → i.fields.imm16 = j.fields.imm16) := by decide
theorem witness_OperandSelector_boundaries :
    ((2 : RegIx) ≠ 0 ∧ (2 : RegIx) ≠ 1) ∧ ((7 : RegIx) ≠ 0 ∧ (7 : RegIx) ≠ 1) := by decide
theorem witness_DataAddress_last : dataAddress { Config.standard with dataAddrOor := .refuse } 0xFFFF = some 0xFFFF := by
  decide
theorem witness_DataAddress_none : dataAddress { Config.standard with dataAddrOor := .refuse } 0x10000 = none := by decide
theorem witness_DataAddress_cut : dataAddress Config.standard 0x10000 = some 0 := by decide
theorem witness_IdleTick_idle : State.reset.cur.controlState = .idle := rfl
theorem witness_IdleTick_running : (midway .execute1 24 0 0 .truncate).cur.controlState ≠ .idle := by decide
theorem witness_Fetch0Tick : (fetching Config.standard 0 0 0).cur.controlState = .fetch0 := rfl
theorem witness_Fetch1Tick : (midway .fetch1 0 0 0 .truncate).cur.controlState = .fetch1 := rfl
theorem witness_Fetch1Tick_after_fetch0 :
    ∃ t u, tick (fetching Config.standard 0 0 0) = .next t ∧ tick t = .next u := ⟨_, _, rfl, rfl⟩
theorem witness_Decode0Tick : (midway .decode0 0 0 0 .truncate).cur.controlState = .decode0 := rfl
theorem witness_Decode1Tick : (midway .decode1 7 0 0 .truncate).cur.controlState = .decode1 := rfl
theorem witness_Execute0_refused :
    (midway .execute0 8 0x10000 0 .refuse).op = some .ld
      ∧ dataAddress (midway .execute0 8 0x10000 0 .refuse).cfg 0x10000 = none := by decide
theorem witness_Execute0_load :
    (midway .execute0 8 0xFFFF 0 .refuse).op = some .ld
      ∧ dataAddress (midway .execute0 8 0xFFFF 0 .refuse).cfg 0xFFFF = some 0xFFFF := by decide
theorem witness_Execute0_alu :
    let s := midway .execute0 1 1 0 .truncate
    alu s.cfg s.op s.cur.alu0 s.cur.alu1 = some 0xFFFFFFFF := by decide
theorem witness_Execute0_nothing :
    (midway .execute0 9 0 0 .truncate).op = some .st ∧ (midway .execute0 24 0 0 .truncate).op = some .hlt
      ∧ (midway .execute0 10 0 0 .truncate).op = none := by decide
theorem witness_Execute1_alu :
    (midway .execute1 7 0 0 .truncate).op = some .lhi ∧ Op.lhi ∈ [Op.add, .sub, .lsf, .rsf, .and, .or, .xor, .lhi] := by
  decide
theorem witness_Execute1_load : (midway .execute1 8 0 0 .truncate).op = some .ld := by decide
theorem witness_Execute1_store :
    (midway .execute1 9 0xFFFF 0 .refuse).op = some .st
      ∧ dataAddress (midway .execute1 9 0xFFFF 0 .refuse).cfg 0xFFFF = some 0xFFFF := by decide
theorem witness_Execute1_store_refused :
    (midway .execute1 9 0x10000 0 .refuse).op = some .st
      ∧ dataAddress (midway .execute1 9 0x10000 0 .refuse).cfg 0x10000 = none := by decide
theorem witness_Execute1_others :
    (midway .execute1 24 0 0 .truncate).op = some .hlt ∧ (midway .execute1 31 0 0 .truncate).op = none := by decide
/-- A taken branch. -/
theorem witness_Resolution_taken :
    (∃ t, tick (midway .execute1 16 0 1 .truncate) = .next t)
      ∧ (midway .execute1 16 0 1 .truncate).op = some .jlt ∧ (midway .execute1 16 0 1 .truncate).cur.aluout = 1 :=
  ⟨⟨_, rfl⟩, by decide, rfl⟩
/-- A branch not taken, and an `aluout` of 1 under an opcode that is no branch. -/
theorem witness_Resolution_not_taken :
    (∃ t, tick (midway .execute1 16 0 0 .truncate) = .next t) ∧ (∃ t, tick (midway .execute1 0 0 1 .truncate) = .next t)
      ∧ (midway .execute1 16 0 0 .truncate).cur.aluout ≠ 1 ∧ (midway .execute1 0 0 1 .truncate).op = some .add :=
  ⟨⟨_, rfl⟩, ⟨_, rfl⟩, by decide, by decide⟩
/-- A tick with a next state in every control state, for NextControlState, EveryTickCountsOneCycle,
TickReadsCurrentSnapshotOnly, ProgramCounterHoldsDuringWindow, MemoryInterfaceUse and EventsOfATick (with `clock false`). -/
theorem witness_every_control_state_ticks :
    (∃ t, tick (midway .idle 0 0 0 .truncate) = .next t) ∧ (∃ t, tick (midway .fetch0 0 0 0 .truncate) = .next t)
      ∧ (∃ t, tick (midway .fetch1 0 0 0 .truncate) = .next t) ∧ (∃ t, tick (midway .decode0 0 0 0 .truncate) = .next t)
      ∧ (∃ t, tick (midway .decode1 0 0 0 .truncate) = .next t) ∧ (∃ t, tick (midway .execute0 8 0 0 .truncate) = .next t)
      ∧ (∃ t, tick (midway .execute1 9 0 0 .truncate) = .next t) ∧ (∃ t, tick (midway .execute1 24 0 0 .truncate) = .next t) :=
  ⟨⟨_, rfl⟩, ⟨_, rfl⟩, ⟨_, rfl⟩, ⟨_, rfl⟩, ⟨_, rfl⟩, ⟨_, rfl⟩, ⟨_, rfl⟩, ⟨_, rfl⟩⟩
/-- The three operations of the memory interface. -/
theorem witness_MemoryInterfaceUse :
    (midway .idle 0 0 0 .truncate).memOp = .none ∧ (midway .execute0 8 5 0 .truncate).memOp = .issueRead 5
      ∧ (midway .execute1 9 5 0 .truncate).memOp = .issueWrite 5 0 := by decide
/-- A halt's EXECUTE1 raises its three events, and none in a tick with the reset signal asserted (R125). -/
theorem test_ports_of_a_halt :
    let s := midway .execute1 24 0 0 .truncate
    ((ports false s).trace.isSome ∧ (ports false s).dump ∧ (ports false s).stop)
      ∧ (ports true s).trace = none ∧ (ports true s).dump = false ∧ (ports true s).stop = false := by decide
/-- A store's EXECUTE1 and a load's EXECUTE0 use the memory ports, and not in a tick with the reset signal asserted. -/
theorem test_memory_ports :
    (ports false (midway .execute1 9 5 0 .truncate)).memWrite = some (5, 0)
      ∧ (ports true (midway .execute1 9 5 0 .truncate)).memWrite = none
      ∧ (ports false (midway .execute0 8 5 0 .truncate)).memRead = some 5
      ∧ (ports true (midway .execute0 8 5 0 .truncate)).memRead = none := by decide
/-- A clock tick with a next state at both levels of the reset signal, for EventsOfATick. -/
theorem witness_EventsOfATick :
    let s := midway .execute1 24 0 0 .truncate
    (∃ t, clock false 0 s = .next t) ∧ ∃ t, clock true 7 s = .next t := ⟨⟨_, rfl⟩, ⟨_, rfl⟩⟩
/-- A counter of one bit, for EveryTickCountsOneCycle. -/
theorem witness_counter_of_a_width :
    ∃ s t : State, tick s = .next t ∧ s.cfg.cycw = some 1 ∧ t.cur.cycleCounter = 0 :=
  ⟨{ State.reset with cfg := { Config.standard with cycw := some 1 }, cur := { Snapshot.zero with cycleCounter := 1 } },
    _, rfl, rfl, rfl⟩
theorem witness_StepRunsDecodedInstruction :
    let s := fetching Config.standard 0 0 0x01130000
    s.cur.controlState = .fetch0 ∧ decode s.cfg.opMap (s.readWord s.cur.pc) = .ok (.add f23) := by decide
theorem witness_UnrecognisedOpcode :
    let s := fetching Config.standard 0 0 0x14000000
    s.cur.controlState = .fetch0 ∧ decode s.cfg.opMap (s.readWord s.cur.pc) = .error (.unrecognised 10) := by decide
theorem witness_NothingStops : State.reset.cfg.dataAddrOor = .truncate := rfl
theorem witness_RefusalOfAWindow :
    exec (.ld f23) (start { Config.standard with dataAddrOor := .refuse } [(3, 0x10000)] 0)
      = .refused (.dataAddressOutOfRange 0x10000) := rfl
/-- The state after reset is consistent, and it ticks and steps. -/
theorem witness_Consistency : State.reset.Consistent ∧ (∃ t, tick State.reset = .next t) ∧ ∃ t, step State.reset = .next t := by
  refine ⟨⟨rfl, by decide, ?_, ?_, ?_, ?_, ?_, ?_, ?_, ?_, ?_⟩, ⟨_, rfl⟩, ⟨_, rfl⟩⟩
  · intro h; exact absurd rfl h
  · intro h; exact absurd h (by decide)
  · intro h; exact absurd h (by decide)
  · intro h; exact absurd h (by decide)
  · intro h; exact absurd h (by decide)
  · intro h; exact absurd h (by decide)
  · intro h; exact absurd h (by decide)
  · intro h; exact absurd h (by decide)
  · intro n h; exact absurd h (by intro h'; cases h')
/-- Two states that differ in the cells x[0] and x[1]. -/
theorem witness_Cells01 :
    SameButCells01 (start Config.standard [(0, 1), (1, 2), (2, 3)] 0) (start Config.standard [(2, 3)] 0) where
  cfg := rfl
  cells := by decide
  snapshot := rfl
  mem := rfl
  start := rfl
  branchTaken := rfl
  readLatch := rfl
  retired := rfl
theorem witness_OneWriteAWindow :
    (∃ t, exec (.st f23) State.reset = .next t) ∧ (∃ t, exec (.jin f23) State.reset = .next t)
      ∧ ∃ t, exec (.add f23) State.reset = .next t := ⟨⟨_, rfl⟩, ⟨_, rfl⟩, ⟨_, rfl⟩⟩
/-- Amounts 31 and 32, where the clauses of the shifts meet. -/
theorem witness_shift_amounts :
    ((start Config.standard [(3, 31)] 0).operand f23 3).toNat < 32
      ∧ 32 ≤ ((start Config.standard [(3, 32)] 0).operand f23 3).toNat := by decide
/-- Every value of SHIFT_OOR and RSHIFT_FILL is that of some state. -/
theorem witness_shift_parameters (o : ShiftOor) (g : ShiftFill) :
    ∃ s : State, s.cfg.shiftOor = o ∧ s.cfg.rshiftFill = g ∧ 32 ≤ (s.operand f23 3).toNat :=
  ⟨start { Config.standard with shiftOor := o, rshiftFill := g } [(3, 32)] 0, rfl, rfl, by show 32 ≤ 32; decide⟩
theorem witness_LoadStore_addresses :
    dataAddress Config.standard ((start Config.standard [(3, 0x10064)] 0).operand f23 3) = some 0x64 := by decide
/-- A store and then a load of the same word. -/
theorem witness_StoreThenLoad :
    ∃ t u, exec (.st f23) (start Config.standard [(2, 42), (3, 0x100)] 0) = .next t ∧ exec (.ld f23) t = .next u
      ∧ dataAddress t.cfg (t.operand f23 f23.src1) = some 0x100 := ⟨_, _, rfl, rfl, by rfl⟩
/-- A store of HLT's word to the next address. -/
theorem witness_StoreIntoNext :
    (∃ t, exec (.st f23) (start Config.standard [(2, 0x30000000), (3, 1)] 0) = .next t)
      ∧ dataAddress Config.standard ((start Config.standard [(2, 0x30000000), (3, 1)] 0).operand f23 3) = some (0 + 1)
      ∧ decode OpMap.standard ((start Config.standard [(2, 0x30000000), (3, 1)] 0).operand f23 2) = .ok (.hlt ⟨0, 0, 0, 0, 0⟩) :=
  ⟨⟨_, rfl⟩, by decide, by decide⟩
/-- Both values of CMP_SIGNED, and operands on both sides of the relations. -/
theorem witness_compare :
    (start Config.standard [] 0).cfg.cmpSigned = true
      ∧ (start { Config.standard with cmpSigned := false } [] 0).cfg.cmpSigned = false
      ∧ (0xFFFFFFFF : Word).toInt < (0 : Word).toInt ∧ ¬ (0xFFFFFFFF : Word).toNat < (0 : Word).toNat := by decide
theorem witness_EqualSources : (⟨0, 0, 2, 2, 0x20⟩ : Fields).src0 = (⟨0, 0, 2, 2, 0x20⟩ : Fields).src1 := rfl
theorem witness_OnlyHalt_window :
    ∃ t, step (fetching Config.standard 0 0 0x30000000) = .next t ∧ t.cur.controlState = .idle := ⟨_, rfl, by rfl⟩
theorem witness_OnlyHalt_tick :
    ∃ t, step (midway .execute1 24 0 0 .truncate) = .next t ∧ t.cur.controlState = .idle := ⟨_, rfl, by rfl⟩
theorem witness_IdleStaysIdle :
    State.reset.cur.controlState = .idle ∧ State.reset.start = false ∧ State.reset.cfg.cycw = none := ⟨rfl, rfl, rfl⟩
theorem witness_WriteThenRead : State.reset.mem.wf State.reset.cfg.memFill := by decide
theorem witness_CanonicalMemory :
    Memory.wf 0 [(3, 1), (65535, 2)] ∧ ∀ a, Memory.read 0 [(3, 1), (65535, 2)] a = Memory.read 0 [(3, 1), (65535, 2)] a :=
  ⟨by decide, fun _ => rfl⟩

end Sys2Proof.Tests
end

section
/-!
The decoder's immediate (R48): bit by bit, and as a number, for a raw field and then for the word the field stands in.
-/
namespace Sys2Proof.Machine

/-- Reads the raw field's bits off the word, without unfolding the extraction again. -/
theorem wordImm16_getLsbD {i : Nat} (hi : i < 16) (w : Word) : (wordImm16 w).getLsbD i = w.getLsbD i := by
  simp [wordImm16, hi]

/-- The raw field's sign bit is bit 15 of the word. -/
theorem wordImm16_msb (w : Word) : (wordImm16 w).msb = w.getLsbD 15 := by
  rw [BitVec.msb_eq_getLsbD_last]
  exact wordImm16_getLsbD (by decide) w

/-- The low half of the immediate is the field, the high half sixteen copies of its sign bit (R48). -/
theorem immediateOf_getLsbD {i : Nat} (hi : i < 32) (k : BitVec 16) :
    (immediateOf k).getLsbD i = if i < 16 then k.getLsbD i else k.msb := by
  rw [immediateOf, BitVec.getLsbD_signExtend]
  simp [hi]

/-- The number an immediate stands for is its field in two's complement (R48). -/
theorem immediateOf_toInt (k : BitVec 16) :
    (immediateOf k).toInt = if k.msb then (k.toNat : Int) - 65536 else k.toNat :=
  calc (immediateOf k).toInt
    _ = k.toInt := BitVec.toInt_signExtend_of_le (by decide)
    _ = if k.msb then (k.toNat : Int) - 65536 else k.toNat := BitVec.toInt_eq_msb_cond k

/-- Above the field every bit of the immediate is bit 15 of the word, and in it the word's own bit. -/
theorem immediateOf_wordImm16_getLsbD {i : Nat} (hi : i < 32) (w : Word) :
    (immediateOf (wordImm16 w)).getLsbD i = w.getLsbD (min i 15) := by
  rw [immediateOf_getLsbD hi]
  split
  case isTrue inField =>
    rw [wordImm16_getLsbD inField, Nat.min_eq_left (by omega)]
  case isFalse aboveField =>
    rw [wordImm16_msb, Nat.min_eq_right (by omega)]

/-- Settles O6: the bits from the field's extension, the number from its two's complement reading, with the field's sign
bit read as bit 15 of the word. -/
theorem immediateSignExtension : Obligations.ImmediateSignExtension := by
  intro c w
  rw [Snapshot.decodeFrom_immediate]
  constructor
  · intro i hi
    exact immediateOf_wordImm16_getLsbD hi w
  · rw [immediateOf_toInt, wordImm16_msb]
    rfl

end Sys2Proof.Machine
end

section
/-!
The sequencer's ticks (spec/40_sequencer.md R60 to R68, R76): the operand selector, the ticks from IDLE to DECODE1, the
cycle count of every tick, and what the start flag can change of a tick.
-/
namespace Sys2Proof.Machine

/-! The operand selector (R60), an equation per case. -/

@[simp] theorem opnd_zero (r : Vector Word 8) (imm : Word) : opnd r imm 0 = 0 := rfl

@[simp] theorem opnd_one (r : Vector Word 8) (imm : Word) : opnd r imm 1 = imm := rfl

theorem opnd_of_ne {i : RegIx} (h0 : i ≠ 0) (h1 : i ≠ 1) (r : Vector Word 8) (imm : Word) : opnd r imm i = cell r i := by
  rw [opnd, if_neg h0, if_neg h1]

/-- Settles O8, one equation of the selector for each kind of index. -/
theorem operandSelector : Obligations.OperandSelector := by
  intro r imm i
  refine ⟨?zero, ?one, ?other⟩
  case zero =>
    rintro rfl
    exact opnd_zero r imm
  case one =>
    rintro rfl
    exact opnd_one r imm
  case other =>
    intro h0 h1
    exact opnd_of_ne h0 h1 r imm

/-! The ticks from FETCH0 to DECODE1: each is the commit of what its rule writes (R65 to R68). -/

/-- Settles O11: the rule's two effects beside the snapshot are the flag's clearing and the read at `pc`. -/
theorem fetch0Tick : Obligations.Fetch0Tick := by
  intro s hst
  rw [tick_fetch0 hst]
  rfl

/-- A tick has one next state. -/
theorem next_unique {s t u : State} (ht : tick s = .next t) (hu : tick s = .next u) : t = u :=
  Host.Outcome.next.inj (ht.symm.trans hu)

/-- Settles O12. The word at `pc` passes from FETCH0 to `inst` through the read latch. -/
theorem fetch1Tick : Obligations.Fetch1Tick := by
  constructor
  · intro s hst
    rw [tick_fetch1 hst]
    rfl
  · intro s t u hst ht hu
    obtain rfl : t = tickFetch0 s := next_unique ht (tick_fetch0 hst)
    have hfetch1 : (tickFetch0 s).cur.controlState = .fetch1 := rfl
    obtain rfl : u = tickFetch1 (tickFetch0 s) := next_unique hu (tick_fetch1 hfetch1)
    have hlatch : (tickFetch0 s).readLatch = s.readWord s.cur.pc := rfl
    exact ⟨hlatch, rfl⟩

/-- Settles O13: the decoder's five writes, each at the bit positions of R47. -/
theorem decode0Tick : Obligations.Decode0Tick := by
  intro s hst
  rw [tick_decode0 hst]
  rfl

/-- Settles O14, by the selection's two cases (`selectOperands_eq`): LHI, and every other opcode. -/
theorem decode1Tick : Obligations.Decode1Tick := by
  intro s hst
  rw [tick_decode1 hst]
  simp only [tickDecode1, selectOperands_eq]
  rfl

/-! The cycle count (R76): every tick commits a snapshot that starts from `State.counted`. -/

theorem Config.addCycles_unbounded {c : Config} (h : c.cycw = none) (n k : Nat) : c.addCycles n k = n + k := by
  simp [Config.addCycles, h]

theorem Config.addCycles_width {c : Config} {w : Nat} (h : c.cycw = some w) (n k : Nat) :
    c.addCycles n k = (n + k) % 2 ^ w := by
  simp [Config.addCycles, h]

theorem tickExecute0_cycleCounter {s t : State} (h : tickExecute0 s = .next t) :
    t.cur.cycleCounter = s.counted.cycleCounter := by
  rcases tickExecute0_cases s with ⟨_, _, he⟩ | ⟨ea, _, _, he⟩ | ⟨_, he⟩
  · cases he.symm.trans h
  · cases he.symm.trans h
    rfl
  · cases he.symm.trans h
    rfl

@[simp] theorem State.executed_cycleCounter (s t : State) :
    (s.executed t).cur.cycleCounter = s.counted.cycleCounter := rfl

theorem tickExecute1_cycleCounter {s t : State} (h : tickExecute1 s = .next t) :
    t.cur.cycleCounter = s.counted.cycleCounter := by
  rcases tickExecute1_cases s with ⟨_, _, he⟩ | ⟨ea, _, _, he⟩ | ⟨_, he⟩ | ⟨_, _, he⟩
  · cases he.symm.trans h
  all_goals
    cases he.symm.trans h
    exact State.executed_cycleCounter _ _

theorem tick_cycleCounter {s t : State} (h : tick s = .next t) :
    t.cur.cycleCounter = s.cfg.addCycles s.cur.cycleCounter 1 := by
  cases hst : s.cur.controlState with
  | idle => rw [next_unique h (tick_idle hst)]; rfl
  | fetch0 => rw [next_unique h (tick_fetch0 hst)]; rfl
  | fetch1 => rw [next_unique h (tick_fetch1 hst)]; rfl
  | decode0 => rw [next_unique h (tick_decode0 hst)]; rfl
  | decode1 => rw [next_unique h (tick_decode1 hst)]; rfl
  | execute0 => exact tickExecute0_cycleCounter ((tick_execute0 hst).symm.trans h)
  | execute1 => exact tickExecute1_cycleCounter ((tick_execute1 hst).symm.trans h)

/-- Settles O19: the count of every tick (`tick_cycleCounter`), read under each form of CYCW. -/
theorem everyTickCountsOneCycle : Obligations.EveryTickCountsOneCycle := by
  intro s t h
  rw [tick_cycleCounter h]
  exact ⟨fun hw => Config.addCycles_unbounded hw _ _, fun _ hw => Config.addCycles_width hw _ _⟩

/-! The start flag (R64): outside IDLE a tick carries it along unread, or, completing a halt, overwrites it. -/

/-- The state with its start flag at any level. -/
def State.withStart (s : State) (b : Bool) : State := { s with start := b }

@[simp] theorem State.withStart_cfg (s : State) (b : Bool) : (s.withStart b).cfg = s.cfg := rfl
@[simp] theorem State.withStart_cur (s : State) (b : Bool) : (s.withStart b).cur = s.cur := rfl
@[simp] theorem State.withStart_op (s : State) (b : Bool) : (s.withStart b).op = s.op := rfl

/-- A halt's EXECUTE1 clears the flag whatever it was (R105). -/
theorem State.executed_haltEvents_withStart (s : State) (b : Bool) :
    (s.withStart b).executed (s.withStart b).haltEvents = s.executed s.haltEvents := rfl

/-- EXECUTE1's own writes neither read nor write the flag. -/
theorem State.executed_withStart (s t : State) (b : Bool) :
    (s.withStart b).executed (t.withStart b) = (s.executed t).withStart b := rfl

theorem tickExecute0_withStart (s : State) (b : Bool) :
    tickExecute0 (s.withStart b) = mapNext (·.withStart b) (tickExecute0 s) := by
  unfold tickExecute0
  rw [State.withStart_op]
  split
  next =>
    rw [State.withStart_cfg, State.withStart_cur]
    cases dataAddress s.cfg s.cur.alu1 <;> rfl
  all_goals rfl

theorem State.committedEffects_withStart {s : State} (h : s.op ≠ some .hlt) (b : Bool) :
    (s.withStart b).committedEffects = mapNext (·.withStart b) s.committedEffects := by
  unfold State.committedEffects
  rw [State.withStart_op]
  split
  next =>
    rw [State.withStart_cfg, State.withStart_cur]
    cases dataAddress s.cfg s.cur.alu1 <;> rfl
  next hhlt => exact absurd hhlt h
  all_goals rfl

/-- EXECUTE1 is its effects beside the snapshot, then its writes and the trace record. -/
theorem tickExecute1_eq (s : State) : tickExecute1 s = mapNext s.executed s.committedEffects := by
  unfold tickExecute1
  cases s.committedEffects <;> rfl

theorem tickExecute1_withStart {s : State} (h : s.op ≠ some .hlt) (b : Bool) :
    tickExecute1 (s.withStart b) = mapNext (·.withStart b) (tickExecute1 s) := by
  rw [tickExecute1_eq, tickExecute1_eq, State.committedEffects_withStart h]
  cases s.committedEffects with
  | next t => exact congrArg _ (State.executed_withStart s t b)
  | fault r => rfl
  | refused r => rfl

/-- A tick outside IDLE that completes no halt carries the flag along. -/
theorem tick_withStart {s : State} (hidle : s.cur.controlState ≠ .idle)
    (hhalt : s.halting false = false) (b : Bool) :
    tick (s.withStart b) = mapNext (·.withStart b) (tick s) := by
  cases hst : s.cur.controlState with
  | idle => exact absurd hst hidle
  | fetch0 => rw [tick_fetch0 hst, tick_fetch0 (s := s.withStart b) hst]; rfl
  | fetch1 => rw [tick_fetch1 hst, tick_fetch1 (s := s.withStart b) hst]; rfl
  | decode0 => rw [tick_decode0 hst, tick_decode0 (s := s.withStart b) hst]; rfl
  | decode1 => rw [tick_decode1 hst, tick_decode1 (s := s.withStart b) hst]; rfl
  | execute0 =>
    rw [tick_execute0 hst, tick_execute0 (s := s.withStart b) hst]
    exact tickExecute0_withStart s b
  | execute1 =>
    have hop : s.op ≠ some .hlt := fun ho =>
      Bool.eq_false_iff.mp hhalt ((s.halting_iff false).mpr ⟨rfl, hst, ho⟩)
    rw [tick_execute1 hst, tick_execute1 (s := s.withStart b) hst]
    exact tickExecute1_withStart hop b

/-- The tick that completes a halt, whose outcome no longer shows the flag it started from. -/
theorem tick_of_halting {s : State} (hhalt : s.halting false = true) :
    tick s = .next (s.executed s.haltEvents) := by
  obtain ⟨-, hst, hop⟩ := (s.halting_iff false).mp hhalt
  have heffects : s.committedEffects = .next s.haltEvents := by simp [State.committedEffects, hop]
  rw [tick_execute1 hst, tickExecute1_eq, heffects]
  rfl

/-- Two states agree on everything but the start flag. -/
def SameButStart (t t' : State) : Prop := t.withStart t'.start = t'

theorem SameButStart.refl (t : State) : SameButStart t t := rfl

theorem sameButStart_withStart (t : State) (b : Bool) : SameButStart t (t.withStart b) := rfl

/-- An outcome is alike to itself with its next state changed by a related change: no tick faults (R110). -/
theorem alike_mapNext {R : State → State → Prop} {g : State → State} (hg : ∀ t, R t (g t)) :
    ∀ o : Host.Outcome State Fault Refusal, Alike R o (mapNext g o)
  | .next t => .inl ⟨t, g t, rfl, rfl, hg t⟩
  | .fault r => nomatch r
  | .refused r => .inr ⟨r, rfl, rfl⟩

/-- Outside IDLE the start flag changes nothing of a tick's outcome but itself (R64). -/
theorem tick_alike_withStart {s : State} (hidle : s.cur.controlState ≠ .idle) (b : Bool) :
    Alike SameButStart (tick s) (tick (s.withStart b)) := by
  cases hhalt : s.halting false with
  | false =>
    rw [tick_withStart hidle hhalt]
    exact alike_mapNext (fun t => sameButStart_withStart t b) _
  | true =>
    have hwith := tick_of_halting (s := s.withStart b) hhalt
    rw [State.executed_haltEvents_withStart] at hwith
    exact .inl ⟨_, _, tick_of_halting hhalt, hwith, SameButStart.refl _⟩

/-- Settles O10. The first clause is the tick's own writes; the second says the flag is read in no other state. -/
theorem idleTick : Obligations.IdleTick := by
  constructor
  · intro s hst
    rw [tick_idle hst]
    rfl
  · intro s b hidle
    exact tick_alike_withStart hidle b

end Sys2Proof.Machine
end

section
/-!
The ALU's functions on words (spec/41_arithmetic_logic.md R80 to R87): the result of each as a number or bit by bit, the
shifts with an equation for each range of amounts and each value of SHIFT_OOR and RSHIFT_FILL.
-/
namespace Sys2Proof.Machine

theorem aluAdd_toNat (a b : Word) : (aluAdd a b).toNat = (a.toNat + b.toNat) % 2 ^ 32 := BitVec.toNat_add a b

/-- The difference is taken among the integers, so that it does not stop at 0 (R81). -/
theorem aluSub_toNat (a b : Word) : ((aluSub a b).toNat : Int) = (a.toNat - b.toNat : Int) % 2 ^ 32 := by
  have hb : b.toNat < 2 ^ 32 := b.isLt
  rw [aluSub, BitVec.toNat_sub]
  omega

/-! The right shift: by less than 32, and past the end of the word (R82). -/

theorem shiftRightBy_toNat {c : Config} (hfill : c.rshiftFill = .zero) (a : Word) (n : Nat) :
    (shiftRightBy c a n).toNat = a.toNat / 2 ^ n := by
  simp only [shiftRightBy, hfill]
  rw [BitVec.toNat_ushiftRight, Nat.shiftRight_eq_div_pow]

theorem shiftRightBy_toInt {c : Config} (hfill : c.rshiftFill = .sign) (a : Word) (n : Nat) :
    (shiftRightBy c a n).toInt = a.toInt / 2 ^ n := by
  simp only [shiftRightBy, hfill]
  rw [BitVec.toInt_sshiftRight, Int.shiftRight_eq_div_pow]
  norm_cast

theorem shiftRightAll_of_zero_fill {c : Config} (hfill : c.rshiftFill = .zero) (a : Word) : shiftRightAll c a = 0 := by
  simp only [shiftRightAll, hfill]

theorem shiftRightAll_of_sign_fill {c : Config} (hfill : c.rshiftFill = .sign) (a : Word) {k : Nat} (hk : k < 32) :
    (shiftRightAll c a).getLsbD k = a.getLsbD 31 := by
  have hmsb : a.msb = a.getLsbD 31 := BitVec.msb_eq_getLsbD_last a
  simp only [shiftRightAll, hfill]
  split
  case isTrue negative => rw [BitVec.getLsbD_allOnes, decide_eq_true hk, ← hmsb, negative]
  case isFalse nonnegative =>
    rw [← hmsb, eq_false_of_ne_true nonnegative]
    exact BitVec.getLsbD_zero

/-! Which shift LSF makes, by its amount and SHIFT_OOR. -/

theorem aluShiftRight_of_lt {b : Word} (hb : b.toNat < 32) (c : Config) (a : Word) :
    aluShiftRight c a b = shiftRightBy c a b.toNat := by
  rw [aluShiftRight, if_pos hb]

theorem aluShiftRight_zero {c : Config} (hoor : c.shiftOor = .zero) {b : Word} (hb : 32 ≤ b.toNat) (a : Word) :
    aluShiftRight c a b = shiftRightAll c a := by
  rw [aluShiftRight, if_neg (Nat.not_lt.mpr hb), hoor]

theorem aluShiftRight_mod32 {c : Config} (hoor : c.shiftOor = .mod32) {b : Word} (hb : 32 ≤ b.toNat) (a : Word) :
    aluShiftRight c a b = shiftRightBy c a (b.toNat % 32) := by
  rw [aluShiftRight, if_neg (Nat.not_lt.mpr hb), hoor]

theorem aluShiftRight_arbitrary {c : Config} (hoor : c.shiftOor = .arbitrary) {b : Word} (hb : 32 ≤ b.toNat) (a : Word) :
    aluShiftRight c a b = Config.arbitraryShiftRight a b := by
  rw [aluShiftRight, if_neg (Nat.not_lt.mpr hb), hoor]

/-! Which shift RSF makes, by its amount and SHIFT_OOR (R83). -/

/-- A left shift loses what leaves the word, so it is the product cut to 32 bits. -/
theorem shiftLeft_toNat (a : Word) (n : Nat) : (a <<< n).toNat = a.toNat * 2 ^ n % 2 ^ 32 := by
  rw [BitVec.toNat_shiftLeft, Nat.shiftLeft_eq]

theorem aluShiftLeft_of_lt {b : Word} (hb : b.toNat < 32) (c : Config) (a : Word) :
    aluShiftLeft c a b = a <<< b.toNat := by
  rw [aluShiftLeft, if_pos hb]

theorem aluShiftLeft_zero {c : Config} (hoor : c.shiftOor = .zero) {b : Word} (hb : 32 ≤ b.toNat) (a : Word) :
    aluShiftLeft c a b = 0 := by
  rw [aluShiftLeft, if_neg (Nat.not_lt.mpr hb), hoor]

theorem aluShiftLeft_mod32 {c : Config} (hoor : c.shiftOor = .mod32) {b : Word} (hb : 32 ≤ b.toNat) (a : Word) :
    aluShiftLeft c a b = a <<< (b.toNat % 32) := by
  rw [aluShiftLeft, if_neg (Nat.not_lt.mpr hb), hoor]

theorem aluShiftLeft_arbitrary {c : Config} (hoor : c.shiftOor = .arbitrary) {b : Word} (hb : 32 ≤ b.toNat) (a : Word) :
    aluShiftLeft c a b = Config.arbitraryShiftLeft a b := by
  rw [aluShiftLeft, if_neg (Nat.not_lt.mpr hb), hoor]

/-! The logical instructions, bit by bit (R84 to R86). -/

theorem aluAnd_getLsbD (a b : Word) (k : Nat) : (aluAnd a b).getLsbD k = (a.getLsbD k && b.getLsbD k) :=
  BitVec.getLsbD_and

theorem aluOr_getLsbD (a b : Word) (k : Nat) : (aluOr a b).getLsbD k = (a.getLsbD k || b.getLsbD k) :=
  BitVec.getLsbD_or

theorem aluXor_getLsbD (a b : Word) (k : Nat) : (aluXor a b).getLsbD k = (a.getLsbD k != b.getLsbD k) :=
  BitVec.getLsbD_xor

/-! LHI (R87): the shift by 16 drops the immediate's sixteen sign bits, so the raw field stands alone in the upper half. -/

theorem aluLhi_eq (a b : Word) : aluLhi a b = a &&& (BitVec.allOnes 16).setWidth 32 ||| b <<< 16 := rfl

theorem aluLhi_immediateOf (a : Word) (k : BitVec 16) : aluLhi a (immediateOf k) = k ++ a.setWidth 16 := by
  apply BitVec.eq_of_getLsbD_eq
  intro i hi
  rw [aluLhi_eq, BitVec.getLsbD_or, BitVec.getLsbD_and, BitVec.getLsbD_setWidth, BitVec.getLsbD_allOnes,
    BitVec.getLsbD_shiftLeft, BitVec.getLsbD_append]
  by_cases hlow : i < 16
  case pos => simp [hlow, hi]
  case neg => simp [hlow, hi, immediateOf_getLsbD (show i - 16 < 32 by omega), show i - 16 < 16 by omega]

theorem aluLhi_toNat (a : Word) (k : BitVec 16) :
    (aluLhi a (immediateOf k)).toNat = k.toNat * 65536 + a.toNat % 65536 :=
  calc (aluLhi a (immediateOf k)).toNat
    _ = k.toNat <<< 16 ||| (a.setWidth 16).toNat := by rw [aluLhi_immediateOf, BitVec.toNat_append]
    _ = k.toNat <<< 16 + (a.setWidth 16).toNat := (Nat.shiftLeft_add_eq_or_of_lt (a.setWidth 16).isLt k.toNat).symm
    _ = k.toNat * 65536 + a.toNat % 65536 := by rw [Nat.shiftLeft_eq, BitVec.toNat_setWidth]

end Sys2Proof.Machine
end

section
/-!
The arithmetic, shift, logical and load-high-immediate instructions (spec/41_arithmetic_logic.md R80 to R88): each is a
window that writes an ALU result, so it completes with the frame of `aluWindow_spec`, and what is left to show of it is its
result.
-/
namespace Sys2Proof.Machine

/-! The window each instruction is. -/

theorem exec_add (f : Fields) (s : State) : exec (.add f) s =
    s.aluWindow .add f (s.operand f f.src0) (s.operand f f.src1)
      (aluAdd (s.operand f f.src0) (s.operand f f.src1)) := rfl

theorem exec_sub (f : Fields) (s : State) : exec (.sub f) s =
    s.aluWindow .sub f (s.operand f f.src0) (s.operand f f.src1)
      (aluSub (s.operand f f.src0) (s.operand f f.src1)) := rfl

theorem exec_lsf (f : Fields) (s : State) : exec (.lsf f) s =
    s.aluWindow .lsf f (s.operand f f.src0) (s.operand f f.src1)
      (aluShiftRight s.cfg (s.operand f f.src0) (s.operand f f.src1)) := rfl

theorem exec_rsf (f : Fields) (s : State) : exec (.rsf f) s =
    s.aluWindow .rsf f (s.operand f f.src0) (s.operand f f.src1)
      (aluShiftLeft s.cfg (s.operand f f.src0) (s.operand f f.src1)) := rfl

theorem exec_and (f : Fields) (s : State) : exec (.and f) s =
    s.aluWindow .and f (s.operand f f.src0) (s.operand f f.src1)
      (aluAnd (s.operand f f.src0) (s.operand f f.src1)) := rfl

theorem exec_or (f : Fields) (s : State) : exec (.or f) s =
    s.aluWindow .or f (s.operand f f.src0) (s.operand f f.src1)
      (aluOr (s.operand f f.src0) (s.operand f f.src1)) := rfl

theorem exec_xor (f : Fields) (s : State) : exec (.xor f) s =
    s.aluWindow .xor f (s.operand f f.src0) (s.operand f f.src1)
      (aluXor (s.operand f f.src0) (s.operand f f.src1)) := rfl

theorem exec_lhi (f : Fields) (s : State) : exec (.lhi f) s =
    s.aluWindow .lhi f (s.operand f f.dst) (immediateOf f.imm16)
      (aluLhi (s.operand f f.dst) (immediateOf f.imm16)) := rfl

/-- An instruction that is a window writing `r` completes with the frame of R88, and what holds of `r` holds of its result. -/
theorem completes_of_aluWindow {i : Instr} {s : State} {a b r : Word} {P : Word → Prop}
    (hexec : exec i s = s.aluWindow i.op i.fields a b r) (hr : P r) :
    ∃ t r, exec i s = .next t ∧ WritesResult i s t r ∧ Stages t a b ∧ P r := by
  obtain ⟨t, ht, hwrites, hstages⟩ := aluWindow_spec i s a b r
  exact ⟨t, r, hexec.trans ht, hwrites, hstages, hr⟩

/-- Settles O35. -/
theorem addCompletes : Obligations.AddCompletes := by
  intro f s
  exact completes_of_aluWindow (exec_add f s) (aluAdd_toNat _ _)

/-- Settles O36. -/
theorem subCompletes : Obligations.SubCompletes := by
  intro f s
  exact completes_of_aluWindow (exec_sub f s) (aluSub_toNat _ _)

/-- Settles O37: an amount under 32 is shifted by whatever SHIFT_OOR is, and the fill says which quotient that is. -/
theorem lsfShiftsRight : Obligations.LsfShiftsRight := by
  intro f s
  refine completes_of_aluWindow (exec_lsf f s) ?_
  intro hamount
  rw [aluShiftRight_of_lt hamount]
  exact ⟨fun hfill => shiftRightBy_toNat hfill _ _, fun hfill => shiftRightBy_toInt hfill _ _⟩

/-- Settles O38, one clause for each value of SHIFT_OOR and, where the fill matters, of RSHIFT_FILL. -/
theorem lsfBy32OrMore : Obligations.LsfBy32OrMore := by
  intro f s hamount
  obtain ⟨t, ht, hwrites, -⟩ := aluWindow_spec (.lsf f) s (s.operand f f.src0) (s.operand f f.src1)
    (aluShiftRight s.cfg (s.operand f f.src0) (s.operand f f.src1))
  refine ⟨t, _, (exec_lsf f s).trans ht, hwrites, ?zeroZero, ?zeroSign, ?mod32Zero, ?mod32Sign, ?arbitrary⟩
  case zeroZero =>
    intro hoor hfill
    rw [aluShiftRight_zero hoor hamount, shiftRightAll_of_zero_fill hfill]
  case zeroSign =>
    intro hoor hfill k hk
    rw [aluShiftRight_zero hoor hamount, shiftRightAll_of_sign_fill hfill _ hk]
  case mod32Zero =>
    intro hoor hfill
    rw [aluShiftRight_mod32 hoor hamount, shiftRightBy_toNat hfill]
  case mod32Sign =>
    intro hoor hfill
    rw [aluShiftRight_mod32 hoor hamount, shiftRightBy_toInt hfill]
  case arbitrary =>
    intro hoor
    exact aluShiftRight_arbitrary hoor hamount _

/-- Settles O39, one clause for the amounts under 32 and one for each value of SHIFT_OOR above. -/
theorem rsfShiftsLeft : Obligations.RsfShiftsLeft := by
  intro f s
  refine completes_of_aluWindow (exec_rsf f s) ⟨?under32, ?zero, ?mod32, ?arbitrary⟩
  case under32 =>
    intro hamount
    rw [aluShiftLeft_of_lt hamount, shiftLeft_toNat]
  case zero =>
    intro hamount hoor
    exact aluShiftLeft_zero hoor hamount _
  case mod32 =>
    intro hamount hoor
    rw [aluShiftLeft_mod32 hoor hamount, shiftLeft_toNat]
  case arbitrary =>
    intro hamount hoor
    exact aluShiftLeft_arbitrary hoor hamount _

/-- Settles O40. -/
theorem logicalCompletes : Obligations.LogicalCompletes := by
  intro f s
  refine ⟨?and, ?or, ?xor⟩
  case and => exact completes_of_aluWindow (exec_and f s) fun k _ => aluAnd_getLsbD _ _ k
  case or => exact completes_of_aluWindow (exec_or f s) fun k _ => aluOr_getLsbD _ _ k
  case xor => exact completes_of_aluWindow (exec_xor f s) fun k _ => aluXor_getLsbD _ _ k

/-- Settles O41. -/
theorem lhiCompletes : Obligations.LhiCompletes := by
  intro f s
  exact completes_of_aluWindow (exec_lhi f s) (aluLhi_toNat _ _)

end Sys2Proof.Machine
end

section
/-!
The load and the store (spec/42_load_store.md R90 to R92): where the address operand has an address, the window of each ends
in one state, named here, and what that state holds is read off it field by field.
-/
namespace Sys2Proof.Machine

/-- The snapshot in EXECUTE1 of an instruction that selects its two sources and writes no `aluout` (R68, R69). -/
def State.sourcesStaged (s : State) (i : Instr) : Snapshot :=
  s.cur.staged (encode s.cfg.opMap i) (s.operand i.fields i.fields.src0) (s.operand i.fields i.fields.src1)

/-- The end of a load's window that reads the address `ea` (R90). -/
def State.afterLoad (s : State) (f : Fields) (ea : Addr) : State :=
  let c := s.sourcesStaged (.ld f)
  ((s.opened (encode s.cfg.opMap (.ld f))).issueRead ea).retire (some .ld) c
    ((c.setRegs (setCell c.regs f.dst (s.readWord ea))).setPc (nextPc c.pc)) .fetch0

/-- The end of a store's window that writes the address `ea` (R91). -/
def State.afterStore (s : State) (f : Fields) (ea : Addr) : State :=
  let c := s.sourcesStaged (.st f)
  ((s.opened (encode s.cfg.opMap (.st f))).issueWrite ea (s.operand f f.src0)).retire (some .st) c
    (c.setPc (nextPc c.pc)) .fetch0

theorem exec_ld_of_dataAddress {f : Fields} {s : State} {ea : Addr}
    (hea : dataAddress s.cfg (s.operand f f.src1) = some ea) : exec (.ld f) s = .next (s.afterLoad f ea) := by
  show execLd f s = _
  simp only [execLd, hea]
  rfl

theorem exec_st_of_dataAddress {f : Fields} {s : State} {ea : Addr}
    (hea : dataAddress s.cfg (s.operand f f.src1) = some ea) : exec (.st f) s = .next (s.afterStore f ea) := by
  show execSt f s = _
  simp only [execSt, hea]
  rfl

/-! What every load leaves. -/

theorem State.afterLoad_windowOf (s : State) (f : Fields) (ea : Addr) :
    WindowOf (encode s.cfg.opMap (.ld f)) s (s.afterLoad f ea) :=
  retire_windowOf rfl rfl rfl ⟨rfl, rfl, rfl, rfl, rfl, rfl⟩

theorem State.afterLoad_goesOn (s : State) (f : Fields) (ea : Addr) : GoesOn s (s.afterLoad f ea) :=
  retire_goesOn rfl rfl rfl rfl ⟨rfl, rfl, rfl, rfl, rfl, rfl⟩

@[simp] theorem State.afterLoad_regs (s : State) (f : Fields) (ea : Addr) :
    (s.afterLoad f ea).cur.regs = setCell s.cur.regs f.dst (s.readWord ea) := rfl

/-- A load writes its destination and no other cell (R90). -/
theorem State.cell_afterLoad_dst (s : State) (f : Fields) (ea : Addr) :
    cell (s.afterLoad f ea).cur.regs f.dst = s.readWord ea := by
  rw [State.afterLoad_regs, cell_setCell_self]

theorem State.afterLoad_otherCellsKept (s : State) (f : Fields) (ea : Addr) :
    OtherCellsKept f.dst s (s.afterLoad f ea) := by
  intro j hj
  rw [State.afterLoad_regs, cell_setCell_of_ne _ _ _ _ hj]

/-- A load only reads memory. -/
theorem State.afterLoad_memoryKept (s : State) (f : Fields) (ea : Addr) : MemoryKept s (s.afterLoad f ea) :=
  State.readWord_congr rfl rfl

/-! What every store leaves. -/

theorem State.afterStore_windowOf (s : State) (f : Fields) (ea : Addr) :
    WindowOf (encode s.cfg.opMap (.st f)) s (s.afterStore f ea) :=
  retire_windowOf rfl rfl rfl ⟨rfl, rfl, rfl, rfl, rfl, rfl⟩

theorem State.afterStore_goesOn (s : State) (f : Fields) (ea : Addr) : GoesOn s (s.afterStore f ea) :=
  retire_goesOn rfl rfl rfl rfl ⟨rfl, rfl, rfl, rfl, rfl, rfl⟩

/-- A store's window changes memory by its one write (R91), so a read after it is a read after that write. -/
theorem State.readWord_afterStore (s : State) (f : Fields) (ea a : Addr) :
    (s.afterStore f ea).readWord a = if a = ea then s.operand f f.src0 else s.readWord a :=
  calc (s.afterStore f ea).readWord a
    _ = (s.writeWord ea (s.operand f f.src0)).readWord a := State.readWord_congr rfl rfl a
    _ = if a = ea then s.operand f f.src0 else s.readWord a := State.readWord_writeWord _ _ _ _

/-- Settles O42: the word read goes into the destination cell, and nothing is written to memory. -/
theorem loadCompletes : Obligations.LoadCompletes := by
  intro f s ea hea
  have hstages : Stages (s.afterLoad f ea) (s.operand f f.src0) (s.operand f f.src1) := ⟨rfl, rfl⟩
  exact ⟨s.afterLoad f ea, exec_ld_of_dataAddress hea, s.afterLoad_windowOf f ea, s.afterLoad_goesOn f ea, hstages,
    s.cell_afterLoad_dst f ea, s.afterLoad_otherCellsKept f ea, rfl, rfl, s.afterLoad_memoryKept f ea, rfl, rfl⟩

/-- Settles O43: the two cases of a read after the store's one write are the word stored and the words kept. -/
theorem storeCompletes : Obligations.StoreCompletes := by
  intro f s ea hea
  have hstages : Stages (s.afterStore f ea) (s.operand f f.src0) (s.operand f f.src1) := ⟨rfl, rfl⟩
  have hstored : (s.afterStore f ea).readWord ea = s.operand f f.src0 := by
    rw [State.readWord_afterStore, if_pos rfl]
  have hkept : ∀ a, a ≠ ea → (s.afterStore f ea).readWord a = s.readWord a := by
    intro a ha
    rw [State.readWord_afterStore, if_neg ha]
  exact ⟨s.afterStore f ea, exec_st_of_dataAddress hea, s.afterStore_windowOf f ea, s.afterStore_goesOn f ea, hstages,
    hstored, hkept, rfl, rfl, rfl, rfl, rfl⟩

end Sys2Proof.Machine
end

section
/-!
The branch family (spec/43_branch_jump.md R95 to R100, R104): each instruction is a window whose result says whether a
relation holds between its two operands, so it completes with the frame of `branchWindow_spec`, and what is left to show of
it is which relation that is.
-/
namespace Sys2Proof.Machine

/-! The comparisons, under each value of CMP_SIGNED (R104). -/

theorem lessThan_iff_toInt {c : Config} (hsigned : c.cmpSigned = true) (a b : Word) :
    lessThan c a b = true ↔ a.toInt < b.toInt := by
  rw [lessThan, if_pos hsigned, BitVec.slt_iff_toInt_lt]

theorem lessThan_iff_toNat {c : Config} (hunsigned : c.cmpSigned = false) (a b : Word) :
    lessThan c a b = true ↔ a.toNat < b.toNat := by
  rw [lessThan, if_neg (ne_true_of_eq_false hunsigned), BitVec.ult_iff_lt, BitVec.lt_def]

theorem lessOrEqual_iff_toInt {c : Config} (hsigned : c.cmpSigned = true) (a b : Word) :
    lessOrEqual c a b = true ↔ a.toInt ≤ b.toInt := by
  rw [lessOrEqual, if_pos hsigned, BitVec.sle_iff_toInt_le]

theorem lessOrEqual_iff_toNat {c : Config} (hunsigned : c.cmpSigned = false) (a b : Word) :
    lessOrEqual c a b = true ↔ a.toNat ≤ b.toNat := by
  rw [lessOrEqual, if_neg (ne_true_of_eq_false hunsigned), BitVec.ule_iff_le, BitVec.le_def]

/-! The window each instruction is, its result written as that of a relation. -/

theorem exec_jlt (f : Fields) (s : State) : exec (.jlt f) s =
    s.branchWindow .jlt f (relationResult (lessThan s.cfg (s.operand f f.src0) (s.operand f f.src1))) := rfl

theorem exec_jle (f : Fields) (s : State) : exec (.jle f) s =
    s.branchWindow .jle f (relationResult (lessOrEqual s.cfg (s.operand f f.src0) (s.operand f f.src1))) := rfl

theorem exec_jeq (f : Fields) (s : State) : exec (.jeq f) s =
    s.branchWindow .jeq f (relationResult (s.operand f f.src0 == s.operand f f.src1)) := rfl

theorem exec_jne (f : Fields) (s : State) : exec (.jne f) s =
    s.branchWindow .jne f (relationResult (s.operand f f.src0 != s.operand f f.src1)) := rfl

/-- JIN's result is that of the relation that always holds (R100). -/
theorem exec_jin (f : Fields) (s : State) : exec (.jin f) s = s.branchWindow .jin f (relationResult true) := rfl

/-- A branch's frame depends on its condition only up to equivalence. -/
theorem Branches.congr {i : Instr} {s t : State} {p q : Prop} (hpq : p ↔ q) (h : Branches i s t p) : Branches i s t q :=
  propext hpq ▸ h

/-- An instruction that is a window with a relation's result completes, and is taken exactly where the relation holds. -/
theorem completes_of_branchWindow {i : Instr} {s : State} {holds : Bool} {taken : Prop}
    (hexec : exec i s = s.branchWindow i.op i.fields (relationResult holds)) (hiff : holds = true ↔ taken) :
    ∃ t, exec i s = .next t ∧ Stages t (s.operand i.fields i.fields.src0) (s.operand i.fields i.fields.src1)
      ∧ Branches i s t taken := by
  obtain ⟨hone, hzero⟩ := relationResult_spec hiff
  obtain ⟨t, ht, hbranches, hstages, -⟩ := branchWindow_spec i s _ taken hone hzero
  exact ⟨t, hexec.trans ht, hstages, hbranches⟩

/-- Settles O46: one next state, its condition read under each value of CMP_SIGNED. -/
theorem jltCompletes : Obligations.JltCompletes := by
  intro f s
  obtain ⟨t, ht, hstages, hbranches⟩ := completes_of_branchWindow (exec_jlt f s) Iff.rfl
  exact ⟨t, ht, hstages, fun hsigned => hbranches.congr (lessThan_iff_toInt hsigned _ _),
    fun hunsigned => hbranches.congr (lessThan_iff_toNat hunsigned _ _)⟩

/-- Settles O47: one next state, its condition read under each value of CMP_SIGNED. -/
theorem jleCompletes : Obligations.JleCompletes := by
  intro f s
  obtain ⟨t, ht, hstages, hbranches⟩ := completes_of_branchWindow (exec_jle f s) Iff.rfl
  exact ⟨t, ht, hstages, fun hsigned => hbranches.congr (lessOrEqual_iff_toInt hsigned _ _),
    fun hunsigned => hbranches.congr (lessOrEqual_iff_toNat hunsigned _ _)⟩

/-- Settles O48: the tests `==` and `!=` on words are equality and its negation. -/
theorem jeqJneComplete : Obligations.JeqJneComplete := by
  intro f s
  refine ⟨?jeq, ?jne⟩
  case jeq => exact completes_of_branchWindow (exec_jeq f s) beq_iff_eq
  case jne => exact completes_of_branchWindow (exec_jne f s) bne_iff_ne

/-- Settles O49. -/
theorem jinCompletes : Obligations.JinCompletes := by
  intro f s
  exact completes_of_branchWindow (exec_jin f s) (iff_true_intro rfl)

end Sys2Proof.Machine
end

section
/-!
The halt, the unrecognised opcode and the stopped machine (spec/44_halt_and_undefined.md R105, R106, R108): the windows of the
first two each end in one state, named here, and so do any number of ticks of the third.
-/
namespace Sys2Proof.Machine

/-! The machine stopped in IDLE (R108). -/

/-- The state with `pc` at 0 and `k` more cycles counted by an unbounded counter: what `k` ticks make of a machine stopped
in IDLE. -/
def State.idledFor (s : State) (k : Nat) : State :=
  s.commit { s.cur with pc := 0, cycleCounter := s.cur.cycleCounter + k }

theorem State.idledFor_idledFor (s : State) (j k : Nat) : (s.idledFor j).idledFor k = s.idledFor (j + k) := by
  simp [State.idledFor, State.commit, Nat.add_assoc]

/-- With the start flag clear, IDLE leads to IDLE, so the tick writes only `pc` and the count (R64, R76). -/
theorem tick_idle_of_not_start {s : State} (hidle : s.cur.controlState = .idle) (hstart : s.start = false)
    (hcycw : s.cfg.cycw = none) : tick s = .next (s.idledFor 1) := by
  rw [tick_idle hidle]
  simp [tickIdle, State.idledFor, State.counted, hidle, hstart, Config.addCycles_unbounded hcycw]

/-- Each tick leaves the machine stopped as it was, so the next one does the same. -/
theorem ticks_succ_idle_of_not_start (k : Nat) {s : State} (hidle : s.cur.controlState = .idle) (hstart : s.start = false)
    (hcycw : s.cfg.cycw = none) : ticks (k + 1) s = .next (s.idledFor (k + 1)) := by
  induction k generalizing s with
  | zero => exact ticks_succ_of_next 0 (tick_idle_of_not_start hidle hstart hcycw)
  | succ k ih =>
    have hfirst := tick_idle_of_not_start hidle hstart hcycw
    calc ticks (k + 2) s
      _ = ticks (k + 1) (s.idledFor 1) := ticks_succ_of_next (k + 1) hfirst
      _ = .next ((s.idledFor 1).idledFor (k + 1)) := ih (s := s.idledFor 1) hidle hstart hcycw
      _ = .next (s.idledFor (k + 2)) := by rw [State.idledFor_idledFor, Nat.add_comm 1]

/-- Settles O53. -/
theorem idleStaysIdle : Obligations.IdleStaysIdle := by
  intro k s hidle hstart hcycw
  exact ⟨s.idledFor (k + 1), ticks_succ_idle_of_not_start k hidle hstart hcycw, rfl⟩

/-! The unrecognised opcode (R106). -/

/-- The end of the window of a word `w` whose opcode names no instruction: the word is decoded, staged and counted like any
other, and its EXECUTE1 writes only `pc` (R106). -/
def State.afterUnrecognised (s : State) (w : Word) : State :=
  let c := s.cur.staged w (s.operand (wordFields w) (wordSrc0 w)) (s.operand (wordFields w) (wordSrc1 w))
  (s.opened w).retire none c (c.setPc (nextPc c.pc)) .fetch0

theorem execUnrecognised_eq (w : Word) (s : State) : execUnrecognised w s = .next (s.afterUnrecognised w) := rfl

/-- In FETCH0 a word the decoder rejects is run, not refused (R54, R106). -/
theorem step_of_unrecognised {s : State} {e : DecodeError} (hst : s.cur.controlState = .fetch0)
    (hdecode : decode s.cfg.opMap (s.readWord s.cur.pc) = .error e) :
    step s = .next (s.afterUnrecognised (s.readWord s.cur.pc)) := by
  rw [step_fetch0 hst, ← execUnrecognised_eq]
  simp only [runWindow, State.fetch, hdecode]

theorem State.afterUnrecognised_windowOf (s : State) (w : Word) : WindowOf w s (s.afterUnrecognised w) :=
  retire_windowOf rfl rfl rfl ⟨rfl, rfl, rfl, rfl, rfl, rfl⟩

theorem State.afterUnrecognised_goesOn (s : State) (w : Word) : GoesOn s (s.afterUnrecognised w) :=
  retire_goesOn rfl rfl rfl rfl ⟨rfl, rfl, rfl, rfl, rfl, rfl⟩

theorem State.afterUnrecognised_memoryKept (s : State) (w : Word) : MemoryKept s (s.afterUnrecognised w) :=
  State.readWord_congr rfl rfl

/-- The operands staged are those the decoded fields select (R60). -/
theorem State.afterUnrecognised_stages (s : State) (w : Word) :
    Stages (s.afterUnrecognised w) (opnd s.cur.regs (immediateOf (wordImm16 w)) (wordSrc0 w))
      (opnd s.cur.regs (immediateOf (wordImm16 w)) (wordSrc1 w)) :=
  ⟨rfl, rfl⟩

/-- Settles O26. -/
theorem unrecognisedOpcodeIsNoOperation : Obligations.UnrecognisedOpcodeIsNoOperation := by
  intro s c hst hdecode
  let w := s.readWord s.cur.pc
  exact ⟨s.afterUnrecognised w, step_of_unrecognised hst hdecode, s.afterUnrecognised_windowOf w,
    s.afterUnrecognised_goesOn w, rfl, rfl, rfl, s.afterUnrecognised_stages w, s.afterUnrecognised_memoryKept w, rfl⟩

/-! The halt (R105). -/

/-- The end of a halt's window: IDLE, with the halt's events emitted before the trace record. -/
def State.afterHalt (s : State) (f : Fields) : State :=
  let c := s.sourcesStaged (.hlt f)
  (s.opened (encode s.cfg.opMap (.hlt f))).haltEvents.retire (some .hlt) c (c.setPc (nextPc c.pc)) .idle

/-- The trace record of a halt's window. -/
def State.haltRecord (s : State) (f : Fields) : TraceRecord :=
  traceRecord s.retired (some .hlt) (s.sourcesStaged (.hlt f)) s.cur.regs

theorem exec_hlt (f : Fields) (s : State) : exec (.hlt f) s = .next (s.afterHalt f) := rfl

theorem State.afterHalt_windowOf (s : State) (f : Fields) :
    WindowOf (encode s.cfg.opMap (.hlt f)) s (s.afterHalt f) :=
  retire_windowOf rfl rfl rfl ⟨rfl, rfl, rfl, rfl, rfl, rfl⟩

theorem State.afterHalt_traces (s : State) (f : Fields) : Traces s (s.afterHalt f) (s.haltRecord f) :=
  retire_traces rfl rfl ⟨rfl, rfl, rfl, rfl, rfl, rfl⟩

/-- The order of a halt's events: EXECUTE1 emits the trace record last (R70; log entry 16). -/
theorem State.afterHalt_events (s : State) (f : Fields) :
    (s.afterHalt f).events = s.events ++ [.dump s.cfg.memFill s.mem, .stop, .trace (s.haltRecord f)] :=
  calc (s.afterHalt f).events
    _ = s.events ++ [.dump s.cfg.memFill s.mem] ++ [.stop] ++ [.trace (s.haltRecord f)] := rfl
    _ = s.events ++ [.dump s.cfg.memFill s.mem, .stop, .trace (s.haltRecord f)] := by simp

theorem State.afterHalt_memoryKept (s : State) (f : Fields) : MemoryKept s (s.afterHalt f) :=
  State.readWord_congr rfl rfl

/-- Settles O51. -/
theorem hltCompletes : Obligations.HltCompletes := by
  intro f s
  have hstages : Stages (s.afterHalt f) (s.operand f f.src0) (s.operand f f.src1) := ⟨rfl, rfl⟩
  exact ⟨s.afterHalt f, s.haltRecord f, exec_hlt f s, s.afterHalt_windowOf f, hstages, rfl, rfl, rfl,
    s.afterHalt_events f, s.afterHalt_traces f, rfl, rfl, s.afterHalt_memoryKept f, rfl, rfl⟩

end Sys2Proof.Machine
end

section
/-!
Encoding and decoding (spec/30_encoding.md R45 to R56): a word is put together from its own fields again, so decoding and
encoding are inverse to each other wherever the opcode map names one instruction.
-/
namespace Sys2Proof

/-! A word and its fields. -/

/-- Two words with the same opcode and the same other fields are one word: the format covers all 32 bits (R45, R46). -/
theorem word_ext {v w : Word} (hopcode : wordOpcode v = wordOpcode w) (hfields : wordFields v = wordFields w) : v = w := by
  obtain ⟨hunused, hdst, hsrc0, hsrc1, himm⟩ := Fields.mk.inj hfields
  have bit {start len : Nat} (h : v.extractLsb' start len = w.extractLsb' start len) (i : Nat) (hlow : start ≤ i)
      (hhigh : i < start + len) : v.getLsbD i = w.getLsbD i := by
    have hbit := congrArg (fun x => BitVec.getLsbD x (i - start)) h
    simpa [show i - start < len by omega, show start + (i - start) = i by omega] using hbit
  apply BitVec.eq_of_getLsbD_eq
  intro i hi
  rcases (by omega : i < 16 ∨ (16 ≤ i ∧ i < 19) ∨ (19 ≤ i ∧ i < 22) ∨ (22 ≤ i ∧ i < 25) ∨ (25 ≤ i ∧ i < 30) ∨ 30 ≤ i)
    with h | ⟨hl, hh⟩ | ⟨hl, hh⟩ | ⟨hl, hh⟩ | ⟨hl, hh⟩ | h
  · exact bit himm i (Nat.zero_le i) (by omega)
  · exact bit hsrc1 i hl hh
  · exact bit hsrc0 i hl hh
  · exact bit hdst i hl hh
  · exact bit hopcode i hl hh
  · exact bit hunused i h (by omega)

/-- A word is the encoding of its own fields, so no bit of it is lost (R45). -/
theorem encodeFields_wordFields (w : Word) : encodeFields (wordOpcode w) (wordFields w) = w :=
  word_ext (wordOpcode_encodeFields _ _) (wordFields_encodeFields _ _)

theorem wordOpcode_encode (m : OpMap) (i : Instr) : wordOpcode (encode m i) = m.code i.op := wordOpcode_encodeFields _ _

theorem wordFields_encode (m : OpMap) (i : Instr) : wordFields (encode m i) = i.fields := wordFields_encodeFields _ _

theorem encode_make (m : OpMap) (o : Op) (f : Fields) : encode m (Instr.make o f) = encodeFields (m.code o) f := by
  rw [encode, Instr.op_make, Instr.fields_make]

theorem Instr.eq_make {i : Instr} {o : Op} (h : i.op = o) : i = Instr.make o i.fields := by
  rw [← h, Instr.make_op_fields]

/-! What the decoder answers, by what the map's lookup finds (R53). -/

theorem decode_of_lookup_some {m : OpMap} {w : Word} {o : Op} (h : m.lookup (wordOpcode w) = some o) :
    decode m w = .ok (Instr.make o (wordFields w)) := by
  simp only [decode, h]

theorem decode_of_lookup_none {m : OpMap} {w : Word} (h : m.lookup (wordOpcode w) = none) :
    decode m w = .error (.unrecognised (wordOpcode w)) := by
  simp only [decode, h]

theorem decode_ok_iff {m : OpMap} {w : Word} {i : Instr} :
    decode m w = .ok i ↔ ∃ o, m.lookup (wordOpcode w) = some o ∧ i = Instr.make o (wordFields w) := by
  cases h : m.lookup (wordOpcode w) with
  | none => simp [decode_of_lookup_none h]
  | some o => simp [decode_of_lookup_some h, eq_comm]

theorem lookup_of_decode_error {m : OpMap} {w : Word} {e : DecodeError} (h : decode m w = .error e) :
    m.lookup (wordOpcode w) = none := by
  cases hlookup : m.lookup (wordOpcode w) with
  | none => rfl
  | some o => cases (decode_of_lookup_some hlookup).symm.trans h

theorem decode_error_iff {m : OpMap} {w : Word} :
    decode m w = .error (.unrecognised (wordOpcode w)) ↔ m.lookup (wordOpcode w) = none :=
  ⟨lookup_of_decode_error, decode_of_lookup_none⟩

theorem lookup_eq_none_iff {m : OpMap} {c : Code} : m.lookup c = none ↔ ∀ o, m.code o ≠ c := by
  simp [OpMap.lookup, List.find?_eq_none, Op.mem_all]

/-- A name the decoder answers is the one its own number stands for. -/
theorem lookup_code_of_decode {m : OpMap} {w : Word} {i : Instr} (h : decode m w = .ok i) :
    m.lookup (m.code i.op) = some i.op := by
  obtain ⟨o, hlookup, rfl⟩ := decode_ok_iff.mp h
  rw [Instr.op_make, code_of_lookup hlookup, hlookup]

/-- Settles O2. The decoder finds the instruction's name by the number that is its alone, and its fields in the word. -/
theorem decodeOfEncode : Obligations.DecodeOfEncode := by
  intro m i hwf
  have hlookup : m.lookup (wordOpcode (encode m i)) = some i.op := by
    rw [wordOpcode_encode]
    exact lookup_of_alone hwf
  rw [decode_of_lookup_some hlookup, wordFields_encode, Instr.make_op_fields]

/-- Settles O4. The name the decoder finds has the word's opcode value as its number, whatever the map. -/
theorem encodeOfDecode : Obligations.EncodeOfDecode := by
  intro m w i hdecode
  obtain ⟨o, hlookup, rfl⟩ := decode_ok_iff.mp hdecode
  rw [encode_make, code_of_lookup hlookup, encodeFields_wordFields]

/-- A legal map gives every number to one name. -/
theorem OpMap.Injective.wellFormed {m : OpMap} (h : m.Injective) (i : Instr) : i.WellFormed m :=
  fun _ ho hcode => List.inj_on_of_nodup_map h ho (Op.mem_all i.op) hcode

/-- Settles O3: the two directions of decoding, and the lookup's failure. -/
theorem legalMapDecodesEveryInstruction : Obligations.LegalMapDecodesEveryInstruction := by
  intro m hm
  refine ⟨hm.wellFormed, fun w i => ⟨encodeOfDecode m w i, ?_⟩, fun w => ?_⟩
  · rintro rfl
    exact decodeOfEncode m i (hm.wellFormed i)
  · rw [decode_error_iff, lookup_eq_none_iff]
    rfl

/-- Bits put above others are those bits shifted up, or-ed with the others. -/
theorem append_zeroExtend {v w n : Nat} (x : BitVec v) (y : BitVec w) :
    (x ++ y).zeroExtend n = (x.zeroExtend n <<< w) ||| y.zeroExtend n := by
  apply BitVec.eq_of_getLsbD_eq
  intro i hi
  simp only [BitVec.truncate_eq_setWidth, BitVec.getLsbD_setWidth, BitVec.getLsbD_or, BitVec.getLsbD_shiftLeft,
    BitVec.getLsbD_append, hi, decide_true, Bool.true_and]
  by_cases hlow : i < w
  · simp [hlow]
  · simp [hlow, show i - w < n by omega, BitVec.getLsbD_of_ge y i (by omega)]

/-- Settles O5. Each concatenation of the format is one shift and one or; the shifts of the upper fields add up. -/
theorem encodingFormula : Obligations.EncodingFormula := by
  intro m i hunused
  have hword : encode m i = (encode m i).zeroExtend 32 := by simp
  rw [hword, encode, encodeFields, hunused]
  simp only [append_zeroExtend, BitVec.shiftLeft_or_distrib, ← BitVec.shiftLeft_add]
  simp

/-- Settles O1, word by word. -/
theorem specWordsDecode : Obligations.SpecWordsDecode := by
  refine ⟨?add, ?addUnusedSet, ?lhi, ?ld, ?st, ?jne, ?hlt, ?unrecognised21, ?unrecognised31⟩ <;> decide

end Sys2Proof
end

section
/-!
What a tick can do (spec/40_sequencer.md R63 to R73, R77): one inversion of `tick`, the small lemmas about EXECUTE1's
writes, and the statements about EXECUTE0, EXECUTE1, the next control state, `pc`, the memory interface and the events.
-/
namespace Sys2Proof.Machine

/-! The inversion of a tick. -/

/-- What EXECUTE0 makes of a load whose address is `ea` (R69). -/
def State.loadIssued (s : State) (ea : Addr) : State :=
  (s.issueRead ea).commit { s.counted with controlState := .execute1 }

/-- What EXECUTE0 makes of every other opcode (R69, R78). -/
def State.aluComputed (s : State) : State :=
  s.commit { s.counted with
    aluout := (alu s.cfg s.op s.cur.alu0 s.cur.alu1).getD s.cur.aluout, controlState := .execute1 }

/-- What the tick of `s` can lead to, control state by control state and, in EXECUTE0 and EXECUTE1, opcode by opcode. -/
inductive Ticked (s : State) : State → Prop where
  | idle (hst : s.cur.controlState = .idle) : Ticked s (tickIdle s)
  | fetch0 (hst : s.cur.controlState = .fetch0) : Ticked s (tickFetch0 s)
  | fetch1 (hst : s.cur.controlState = .fetch1) : Ticked s (tickFetch1 s)
  | decode0 (hst : s.cur.controlState = .decode0) : Ticked s (tickDecode0 s)
  | decode1 (hst : s.cur.controlState = .decode1) : Ticked s (tickDecode1 s)
  | load (ea : Addr) (hst : s.cur.controlState = .execute0) (hop : s.op = some .ld)
      (hea : dataAddress s.cfg s.cur.alu1 = some ea) : Ticked s (s.loadIssued ea)
  | compute (hst : s.cur.controlState = .execute0) (hop : s.op ≠ some .ld) : Ticked s s.aluComputed
  | store (ea : Addr) (hst : s.cur.controlState = .execute1) (hop : s.op = some .st)
      (hea : dataAddress s.cfg s.cur.alu1 = some ea) : Ticked s (s.executed (s.issueWrite ea s.cur.alu0))
  | halt (hst : s.cur.controlState = .execute1) (hop : s.op = some .hlt) : Ticked s (s.executed s.haltEvents)
  | complete (hst : s.cur.controlState = .execute1) (hop : s.op ≠ some .st) (hhlt : s.op ≠ some .hlt) :
      Ticked s (s.executed s)

/-- The one access the machine gives no meaning: a load in EXECUTE0 or a store in EXECUTE1 whose address operand has no
address (R32). -/
def State.addressless (s : State) : Prop :=
  dataAddress s.cfg s.cur.alu1 = none ∧
    (s.cur.controlState = .execute0 ∧ s.op = some .ld ∨ s.cur.controlState = .execute1 ∧ s.op = some .st)

/-- A tick refuses an access without an address, and else answers one of the states of `Ticked`. -/
theorem tick_cases (s : State) :
    s.addressless ∧ tick s = .refused (.dataAddressOutOfRange s.cur.alu1) ∨ ∃ t, tick s = .next t ∧ Ticked s t := by
  cases hst : s.cur.controlState with
  | idle => exact .inr ⟨_, tick_idle hst, .idle hst⟩
  | fetch0 => exact .inr ⟨_, tick_fetch0 hst, .fetch0 hst⟩
  | fetch1 => exact .inr ⟨_, tick_fetch1 hst, .fetch1 hst⟩
  | decode0 => exact .inr ⟨_, tick_decode0 hst, .decode0 hst⟩
  | decode1 => exact .inr ⟨_, tick_decode1 hst, .decode1 hst⟩
  | execute0 =>
    rw [tick_execute0 hst]
    rcases tickExecute0_cases s with ⟨hop, hea, ht⟩ | ⟨ea, hop, hea, ht⟩ | ⟨hop, ht⟩
    · exact .inl ⟨⟨hea, .inl ⟨hst, hop⟩⟩, ht⟩
    · exact .inr ⟨_, ht, .load ea hst hop hea⟩
    · exact .inr ⟨_, ht, .compute hst hop⟩
  | execute1 =>
    rw [tick_execute1 hst]
    rcases tickExecute1_cases s with ⟨hop, hea, ht⟩ | ⟨ea, hop, hea, ht⟩ | ⟨hop, ht⟩ | ⟨hop, hhlt, ht⟩
    · exact .inl ⟨⟨hea, .inr ⟨hst, hop⟩⟩, ht⟩
    · exact .inr ⟨_, ht, .store ea hst hop hea⟩
    · exact .inr ⟨_, ht, .halt hst hop⟩
    · exact .inr ⟨_, ht, .complete hst hop hhlt⟩

theorem ticked_of_tick {s t : State} (h : tick s = .next t) : Ticked s t := by
  rcases tick_cases s with ⟨-, hr⟩ | ⟨u, hu, hcase⟩
  · cases hr.symm.trans h
  · rwa [next_unique h hu]

/-- In EXECUTE1 a tick ends in EXECUTE1's own writes, whatever the opcode's effects beside the snapshot. -/
theorem Ticked.eq_executed {s t : State} (h : Ticked s t) (hst : s.cur.controlState = .execute1) :
    ∃ u, t = s.executed u := by
  cases h with
  | store | halt | complete => exact ⟨_, rfl⟩
  | idle h | fetch0 h | fetch1 h | decode0 h | decode1 h | load _ h | compute h => cases h.symm.trans hst

/-! What EXECUTE1 writes. -/

@[simp] theorem State.executed_cfg (s t : State) : (s.executed t).cfg = t.cfg := rfl
@[simp] theorem State.executed_regs (s t : State) : (s.executed t).cur.regs = s.committedRegs := rfl
@[simp] theorem State.executed_pc (s t : State) : (s.executed t).cur.pc = s.resolvedPc := rfl
@[simp] theorem State.executed_controlState (s t : State) :
    (s.executed t).cur.controlState = afterExecute1 s.op := rfl
@[simp] theorem State.executed_branchTaken (s t : State) : (s.executed t).branchTaken = s.resolvedFlag := rfl
@[simp] theorem State.executed_mem (s t : State) : (s.executed t).mem = t.mem := rfl
@[simp] theorem State.executed_readLatch (s t : State) : (s.executed t).readLatch = t.readLatch := rfl
@[simp] theorem State.executed_start (s t : State) : (s.executed t).start = t.start := rfl
@[simp] theorem State.executed_retired (s t : State) : (s.executed t).retired = t.retired + 1 := rfl
@[simp] theorem State.executed_events (s t : State) :
    (s.executed t).events = t.events ++ [.trace (traceRecord t.retired s.op s.cur s.committedRegs)] := rfl

/-- The opcodes whose EXECUTE1 writes `aluout` into `x[dst]` (R71). -/
def writesAluout : Option Op → Bool
  | some .add | some .sub | some .lsf | some .rsf | some .and | some .or | some .xor | some .lhi => true
  | some .ld | some .st | some .jlt | some .jle | some .jeq | some .jne | some .jin | some .hlt | none => false

/-- An opcode whose EXECUTE1 writes `aluout` is of no other kind. -/
theorem other_kinds_of_writesAluout {o : Option Op} (h : writesAluout o = true) :
    isBranch o = false ∧ o ≠ some .ld ∧ o ≠ some .st ∧ o ≠ some .hlt := by
  rcases o with _ | o
  · cases h
  · revert h
    cases o <;> decide

/-- A branch-family opcode is of no other kind. -/
theorem other_kinds_of_isBranch {o : Option Op} (h : isBranch o = true) :
    writesAluout o = false ∧ o ≠ some .ld ∧ o ≠ some .st ∧ o ≠ some .hlt := by
  rcases o with _ | o
  · cases h
  · revert h
    cases o <;> decide

theorem isBranch_iff (o : Option Op) : isBranch o = true ↔
    o = some .jlt ∨ o = some .jle ∨ o = some .jeq ∨ o = some .jne ∨ o = some .jin := by
  rcases o with _ | o
  · decide
  · cases o <;> decide

theorem branchTakenNow_iff (o : Option Op) (v : Word) :
    branchTakenNow o v = true ↔ isBranch o = true ∧ v = 1 := by
  simp [branchTakenNow]

/-- The cells EXECUTE1 leaves, by the kind of the opcode (R71, R72). -/
theorem State.committedRegs_eq (s : State) : s.committedRegs =
    if writesAluout s.op then setCell s.cur.regs s.cur.dst s.cur.aluout
    else if s.op = some .ld then setCell s.cur.regs s.cur.dst s.readLatch
    else if branchTakenNow s.op s.cur.aluout then setCell s.cur.regs linkIx (linkOf s.cur.pc)
    else s.cur.regs := by
  unfold State.committedRegs
  rcases s.op with _ | o
  · rfl
  · cases o <;> simp [writesAluout, branchTakenNow, isBranch, State.readResult]

theorem State.committedRegs_of_writesAluout {s : State} (h : writesAluout s.op = true) :
    s.committedRegs = setCell s.cur.regs s.cur.dst s.cur.aluout := by
  rw [State.committedRegs_eq, if_pos h]

theorem State.committedRegs_of_ld {s : State} (h : s.op = some .ld) :
    s.committedRegs = setCell s.cur.regs s.cur.dst s.readLatch := by
  rw [State.committedRegs_eq, h]
  rfl

theorem State.committedRegs_of_isBranch {s : State} (h : isBranch s.op = true) :
    s.committedRegs = if s.cur.aluout = 1 then setCell s.cur.regs linkIx (linkOf s.cur.pc) else s.cur.regs := by
  rcases (isBranch_iff _).mp h with ho | ho | ho | ho | ho <;> simp [State.committedRegs, ho]

/-- A store, a halt and an unrecognised opcode write no register (R71, R105, R106). -/
theorem State.committedRegs_of_writesNone {s : State} (h : s.op = some .st ∨ s.op = some .hlt ∨ s.op = none) :
    s.committedRegs = s.cur.regs := by
  rcases h with ho | ho | ho <;> simp [State.committedRegs, ho]

theorem afterExecute1_eq (o : Option Op) : afterExecute1 o = if o = some .hlt then .idle else .fetch0 := by
  rcases o with _ | o
  · rfl
  · cases o <;> rfl

theorem afterExecute1_of_ne_hlt {o : Option Op} (h : o ≠ some .hlt) : afterExecute1 o = .fetch0 := by
  rw [afterExecute1_eq, if_neg h]

/-- The ALU has no result for a load, a store, a halt and an unrecognised opcode (R78). -/
theorem alu_eq_none {c : Config} {o : Option Op} {a b : Word}
    (h : o = some .ld ∨ o = some .st ∨ o = some .hlt ∨ o = none) : alu c o a b = none := by
  rcases h with rfl | rfl | rfl | rfl <;> rfl

/-! EXECUTE0. -/

theorem tick_loadIssued {s : State} {ea : Addr} (hst : s.cur.controlState = .execute0) (hop : s.op = some .ld)
    (hea : dataAddress s.cfg s.cur.alu1 = some ea) : tick s = .next (s.loadIssued ea) := by
  rw [tick_execute0 hst]
  simp only [tickExecute0, hop, hea]
  rw [alu_eq_none (.inl rfl)]
  rfl

theorem tick_aluComputed {s : State} (hst : s.cur.controlState = .execute0) (hop : s.op ≠ some .ld) :
    tick s = .next s.aluComputed := by
  rw [tick_execute0 hst]
  rcases tickExecute0_cases s with ⟨h, -⟩ | ⟨_, h, -⟩ | ⟨-, ht⟩
  · exact absurd h hop
  · exact absurd h hop
  · exact ht

theorem tick_of_addressless {s : State} (h : s.addressless) :
    tick s = .refused (.dataAddressOutOfRange s.cur.alu1) := by
  obtain ⟨hea, ⟨hst, hop⟩ | ⟨hst, hop⟩⟩ := h
  · rw [tick_execute0 hst]
    simp only [tickExecute0, hop, hea]
  · rw [tick_execute1 hst]
    simp only [tickExecute1, State.committedEffects, hop, hea]

/-- Settles O15. Where the ALU has no result EXECUTE0 keeps the stale `aluout` (D13; log entry 20). -/
theorem execute0Tick : Obligations.Execute0Tick := by
  intro s hst
  refine ⟨?refused, ?load, ?computed, ?nothing⟩
  case refused =>
    intro hop hea
    exact tick_of_addressless ⟨hea, .inl ⟨hst, hop⟩⟩
  case load =>
    intro ea hop hea
    exact tick_loadIssued hst hop hea
  case computed =>
    intro r hr
    have hop : s.op ≠ some .ld := fun h => by simp [alu_eq_none (.inl h)] at hr
    rw [tick_aluComputed hst hop, State.aluComputed, hr]
    rfl
  case nothing =>
    intro hop
    have hld : s.op ≠ some .ld := by rcases hop with h | h | h <;> simp [h]
    rw [tick_aluComputed hst hld, State.aluComputed, alu_eq_none (.inr hop)]
    rfl

/-! EXECUTE1. -/

theorem tick_store {s : State} {ea : Addr} (hst : s.cur.controlState = .execute1) (hop : s.op = some .st)
    (hea : dataAddress s.cfg s.cur.alu1 = some ea) : tick s = .next (s.executed (s.issueWrite ea s.cur.alu0)) := by
  rw [tick_execute1 hst, tickExecute1_eq, State.committedEffects]
  simp only [hop, hea]
  rfl

theorem tick_complete {s : State} (hst : s.cur.controlState = .execute1) (hop : s.op ≠ some .st)
    (hhlt : s.op ≠ some .hlt) : tick s = .next (s.executed s) := by
  rw [tick_execute1 hst]
  rcases tickExecute1_cases s with ⟨h, -⟩ | ⟨_, h, -⟩ | ⟨h, -⟩ | ⟨-, -, ht⟩
  · exact absurd h hop
  · exact absurd h hop
  · exact absurd h hhlt
  · exact ht

theorem tick_halt {s : State} (hst : s.cur.controlState = .execute1) (hop : s.op = some .hlt) :
    tick s = .next (s.executed s.haltEvents) :=
  tick_of_halting ((s.halting_iff false).mpr ⟨rfl, hst, hop⟩)

/-- Settles O16, one clause for each kind of opcode. -/
theorem execute1Commit : Obligations.Execute1Commit := by
  intro s hst
  refine ⟨?aluout, ?load, ?store, ?refused, ?others⟩
  case aluout =>
    intro o hop ho
    have hall : ∀ p ∈ [Op.add, .sub, .lsf, .rsf, .and, .or, .xor, .lhi], writesAluout (some p) = true := by decide
    have hwrites : writesAluout s.op = true := hop ▸ hall o ho
    obtain ⟨-, -, hne, hhlt⟩ := other_kinds_of_writesAluout hwrites
    exact ⟨_, tick_complete hst hne hhlt, State.committedRegs_of_writesAluout hwrites, rfl⟩
  case load =>
    intro hop
    exact ⟨_, tick_complete hst (by simp [hop]) (by simp [hop]), State.committedRegs_of_ld hop, rfl⟩
  case store =>
    intro ea hop hea
    refine ⟨_, tick_store hst hop hea, State.committedRegs_of_writesNone (.inl hop), fun a => ?_⟩
    exact State.readWord_writeWord s ea a s.cur.alu0
  case refused =>
    intro hop hea
    exact tick_of_addressless ⟨hea, .inr ⟨hst, hop⟩⟩
  case others =>
    rintro (hop | hop)
    · exact ⟨_, tick_halt hst hop, State.committedRegs_of_writesNone (.inr (.inl hop)), rfl⟩
    · exact ⟨_, tick_complete hst (by simp [hop]) (by simp [hop]),
        State.committedRegs_of_writesNone (.inr (.inr hop)), rfl⟩

/-- A taken branch leads to its target with the flag set (R72). -/
theorem State.resolved_of_taken {s : State} (h : branchTakenNow s.op s.cur.aluout = true) :
    s.resolvedFlag = true ∧ s.resolvedPc = targetOf s.cur.immediate := by
  simp [State.resolvedFlag, State.resolvedPc, h]

/-- With no branch taken the flag stays, and a clear flag lets `pc` move on (R72). -/
theorem State.resolved_of_not_taken {s : State} (h : branchTakenNow s.op s.cur.aluout = false) :
    s.resolvedFlag = s.branchTaken ∧ (s.branchTaken = false → s.resolvedPc = nextPc s.cur.pc) := by
  have hflag : s.resolvedFlag = s.branchTaken := by simp [State.resolvedFlag, h]
  refine ⟨hflag, fun hclear => ?_⟩
  simp [State.resolvedPc, h, hflag, hclear]

/-- Settles O17, by whether a branch is taken. -/
theorem execute1BranchResolution : Obligations.Execute1BranchResolution := by
  intro s t hst ht
  obtain ⟨u, rfl⟩ := (ticked_of_tick ht).eq_executed hst
  simp only [← isBranch_iff, ← branchTakenNow_iff]
  constructor
  · intro htaken
    obtain ⟨hflag, hpc⟩ := State.resolved_of_taken htaken
    obtain ⟨hbranch, hone⟩ := (branchTakenNow_iff _ _).mp htaken
    refine ⟨hflag, hpc, ?_⟩
    rw [State.executed_regs, State.committedRegs_of_isBranch hbranch, if_pos hone]
    rfl
  · intro hnot
    obtain ⟨hflag, hpc⟩ := State.resolved_of_not_taken (Bool.eq_false_iff.mpr hnot)
    refine ⟨hflag, hpc, fun hbranch => ?_⟩
    have hone : s.cur.aluout ≠ 1 := fun h => hnot ((branchTakenNow_iff _ _).mpr ⟨hbranch, h⟩)
    rw [State.executed_regs, State.committedRegs_of_isBranch hbranch, if_neg hone]

/-! What every tick does. -/

/-- Settles O18. -/
theorem nextControlState : Obligations.NextControlState := by
  intro s t ht
  cases ticked_of_tick ht with
  | idle hst | fetch0 hst | fetch1 hst | decode0 hst | decode1 hst | load _ hst | compute hst => rw [hst]; rfl
  | store _ hst | halt hst | complete hst => rw [hst]; exact afterExecute1_eq s.op

/-- Settles O21: of the ticks outside IDLE and EXECUTE1 none writes `pc`. -/
theorem programCounterHoldsDuringWindow : Obligations.ProgramCounterHoldsDuringWindow := by
  intro s t ht
  cases ticked_of_tick ht with
  | idle hst => exact ⟨fun _ => rfl, fun h => absurd hst h⟩
  | fetch0 hst | fetch1 hst | decode0 hst | decode1 hst | load _ hst | compute hst =>
    exact ⟨fun h => (by cases hst.symm.trans h), fun _ _ => rfl⟩
  | store _ hst | halt hst | complete hst => exact ⟨fun h => (by cases hst.symm.trans h), fun _ h => absurd hst h⟩

/-! What the next snapshot can change of a tick: nothing (R63, R138). -/

/-- The state with its next snapshot holding anything. -/
def State.withNext (s : State) (n : Snapshot) : State := { s with nxt := n }

theorem tick_withNext (s : State) (n : Snapshot) : tick (s.withNext n) = tick s := by
  rcases tick_cases s with ⟨hnone, ht⟩ | ⟨t, ht, hcase⟩
  · rw [ht]
    exact tick_of_addressless (s := s.withNext n) hnone
  · rw [ht]
    cases hcase with
    | idle hst => exact tick_idle (s := s.withNext n) hst
    | fetch0 hst => exact tick_fetch0 (s := s.withNext n) hst
    | fetch1 hst => exact tick_fetch1 (s := s.withNext n) hst
    | decode0 hst => exact tick_decode0 (s := s.withNext n) hst
    | decode1 hst => exact tick_decode1 (s := s.withNext n) hst
    | load ea hst hop hea => exact tick_loadIssued (s := s.withNext n) hst hop hea
    | compute hst hop => exact tick_aluComputed (s := s.withNext n) hst hop
    | store ea hst hop hea => exact tick_store (s := s.withNext n) hst hop hea
    | halt hst hop => exact tick_halt (s := s.withNext n) hst hop
    | complete hst hop hhlt => exact tick_complete (s := s.withNext n) hst hop hhlt

theorem Ticked.committed {s t : State} (h : Ticked s t) : t.nxt = t.cur := by
  cases h <;> rfl

/-- Settles O20. -/
theorem tickReadsCurrentSnapshotOnly : Obligations.TickReadsCurrentSnapshotOnly := by
  intro s n
  exact ⟨tick_withNext s n, fun _ ht => (ticked_of_tick ht).committed⟩

/-! The memory interface and the events. -/

/-- The ports of a tick that issues no memory operation (R77). -/
theorem State.ports_of_memOp_none {s : State} (h : s.memOp = .none) :
    (ports false s).memRead = none ∧ (ports false s).memWrite = none := by
  simp [ports, h]

theorem State.ports_of_issueRead {s : State} {a : Addr} (h : s.memOp = .issueRead a) :
    (ports false s).memRead = some a ∧ (ports false s).memWrite = none := by
  simp [ports, h]

theorem State.ports_of_issueWrite {s : State} {a : Addr} {v : Word} (h : s.memOp = .issueWrite a v) :
    (ports false s).memRead = none ∧ (ports false s).memWrite = some (a, v) := by
  simp [ports, h]

/-- What a memory operation does to the read latch and to memory, from `s` to `t` (R35, R37). -/
def MemOp.Done (o : MemOp) (s t : State) : Prop :=
  match o with
  | .none => t.readLatch = s.readLatch ∧ t.mem = s.mem
  | .issueRead a => t.readLatch = s.readWord a ∧ t.mem = s.mem
  | .issueWrite a v => t.readLatch = s.readLatch ∧ ∀ b, t.readWord b = if b = a then v else s.readWord b

theorem Ticked.memOp_done {s t : State} (h : Ticked s t) : s.memOp.Done s t := by
  cases h with
  | idle hst | fetch0 hst | fetch1 hst | decode0 hst | decode1 hst => simp only [State.memOp, hst]; exact ⟨rfl, rfl⟩
  | load ea hst hop hea => simp only [State.memOp, hst, hop, hea]; exact ⟨rfl, rfl⟩
  | compute hst hop => simp only [State.memOp, hst, if_neg hop]; exact ⟨rfl, rfl⟩
  | store ea hst hop hea =>
    simp only [State.memOp, hst, hop, hea]
    exact ⟨rfl, fun b => State.readWord_writeWord s ea b s.cur.alu0⟩
  | halt hst hop => simp only [State.memOp, hst, hop]; exact ⟨rfl, rfl⟩
  | complete hst hop => simp only [State.memOp, hst, if_neg hop]; exact ⟨rfl, rfl⟩

/-- Settles O22, by the operation of the table of R37. -/
theorem memoryInterfaceUse : Obligations.MemoryInterfaceUse := by
  intro s t ht
  have hdone := (ticked_of_tick ht).memOp_done
  cases ho : s.memOp with
  | none =>
    rw [ho] at hdone
    exact ⟨hdone.1, hdone.2, State.ports_of_memOp_none ho⟩
  | issueRead a =>
    rw [ho] at hdone
    exact ⟨hdone.1, hdone.2, State.ports_of_issueRead ho⟩
  | issueWrite a v =>
    rw [ho] at hdone
    exact ⟨hdone.1, hdone.2, State.ports_of_issueWrite ho⟩

/-! The events (R119 to R122), as the ports show them. -/

/-- What the ports of one tick show as events, oldest first; a halt's dump and stop precede its trace record (log entry
16). -/
def Ports.shown (p : Ports) (s : State) : List Event :=
  (if p.dump then [.dump s.cfg.memFill s.mem] else []) ++ (if p.stop then [.stop] else [])
    ++ (match p.trace with | some r => [.trace r] | none => [])

theorem ports_reset (s : State) : ports true s =
    { memRead := none, memWrite := none, trace := none, dump := false, stop := false, diag := s.cur } := rfl

theorem ports_trace_isSome (b : Bool) (s : State) :
    (ports b s).trace.isSome = true ↔ b = false ∧ s.cur.controlState = .execute1 := by
  rw [← State.completing_iff]
  simp only [ports]
  split <;> simp_all

/-- Outside EXECUTE1 no event is shown. -/
theorem shown_of_ne_execute1 {s : State} (h : s.cur.controlState ≠ .execute1) : (ports false s).shown s = [] := by
  simp [Ports.shown, ports, State.halting, State.completing, h]

/-- In EXECUTE1 the trace record is shown, after a halt's own events. -/
theorem shown_of_execute1 {s : State} (h : s.cur.controlState = .execute1) : (ports false s).shown s =
    (if s.op = some .hlt then [.dump s.cfg.memFill s.mem, .stop] else [])
      ++ [.trace (traceRecord s.retired s.op s.cur s.committedRegs)] := by
  by_cases hop : s.op = some .hlt <;> simp [Ports.shown, ports, State.halting, State.completing, h, hop]

theorem Ticked.events {s t : State} (h : Ticked s t) : t.events = s.events ++ (ports false s).shown s := by
  cases h with
  | idle hst | fetch0 hst | fetch1 hst | decode0 hst | decode1 hst | load _ hst | compute hst =>
    rw [shown_of_ne_execute1 (by simp [hst]), List.append_nil]
    rfl
  | store ea hst hop => rw [shown_of_execute1 hst, if_neg (by simp [hop])]; rfl
  | halt hst hop => rw [shown_of_execute1 hst, if_pos hop]; simp
  | complete hst _ hop => rw [shown_of_execute1 hst, if_neg hop]; rfl

theorem Ticked.retired {s t : State} (h : Ticked s t) :
    t.retired = s.retired + (if s.cur.controlState = .execute1 then 1 else 0) := by
  cases h with
  | idle hst | fetch0 hst | fetch1 hst | decode0 hst | decode1 hst | load _ hst | compute hst =>
    rw [if_neg (by simp [hst])]
    rfl
  | store _ hst | halt hst | complete hst => rw [if_pos hst]; rfl

theorem clock_events {b : Bool} {l : Word} {s t : State} (h : clock b l s = .next t) :
    t.events = s.events ++ (ports b s).shown s := by
  cases b with
  | true =>
    obtain rfl : s.applyReset l = t := Host.Outcome.next.inj h
    rw [ports_reset]
    exact (List.append_nil _).symm
  | false => exact (ticked_of_tick h).events

/-- Settles O23. -/
theorem eventsOfATick : Obligations.EventsOfATick := by
  intro b l s t h
  refine ⟨?events, ports_trace_isSome b s, s.halting_iff b, s.halting_iff b, ?retired⟩
  case events =>
    have hevents := clock_events h
    rw [Ports.shown, ← List.append_assoc, ← List.append_assoc] at hevents
    exact hevents
  case retired =>
    rintro rfl
    exact (ticked_of_tick h).retired

/-- Settles O54: the reset signal's state and its ports, field by field. -/
theorem resetSignalWins : Obligations.ResetSignalWins := by
  intro s l
  exact ⟨s.applyReset l, rfl, rfl, rfl, rfl, rfl, rfl, rfl, rfl, ports_reset s⟩

end Sys2Proof.Machine
end

section
/-!
What a window can do (spec/40_sequencer.md R74): one inversion of `exec`, and the proof that six ticks from FETCH0 are the
window. EXECUTE0 and EXECUTE1 are reached with the same snapshot the window names, but for the counts.
-/
namespace Sys2Proof.Machine

/-! The inversion of `exec`. -/

/-- The two operands an instruction of the name `o` stages, read off its own fields (R60, R61, R68). -/
def State.operands (s : State) (o : Op) (f : Fields) : Word × Word :=
  selectOperands (some o) s.cur.regs (immediateOf f.imm16) f.dst f.src0 f.src1

/-- The result of an instruction of the name `o`, where the ALU has one (R78). -/
def State.result (s : State) (o : Op) (f : Fields) : Option Word :=
  alu s.cfg (some o) (s.operands o f).1 (s.operands o f).2

/-- The end of the window of an instruction that writes its result `r` (R88). -/
def State.afterResult (s : State) (o : Op) (f : Fields) (r : Word) : State :=
  let w := encodeFields (s.cfg.opMap.code o) f
  let c := (s.cur.staged w (s.operands o f).1 (s.operands o f).2).setAluout r
  (s.opened w).retire (some o) c ((c.setRegs (setCell c.regs f.dst r)).setPc (nextPc c.pc)) .fetch0

/-- The end of the window of a branch-family instruction that is taken (R95). -/
def State.afterTaken (s : State) (o : Op) (f : Fields) : State :=
  let w := encodeFields (s.cfg.opMap.code o) f
  let c := (s.cur.staged w (s.operand f f.src0) (s.operand f f.src1)).setAluout 1
  ((s.opened w).setFlag true).retire (some o) c
    ((c.setRegs (setCell c.regs linkIx (linkOf c.pc))).setPc (targetOf c.immediate)) .fetch0

/-- The end of the window of a branch-family instruction with the result `r` that is not taken (R95). -/
def State.afterNotTaken (s : State) (o : Op) (f : Fields) (r : Word) : State :=
  let w := encodeFields (s.cfg.opMap.code o) f
  let c := (s.cur.staged w (s.operand f f.src0) (s.operand f f.src1)).setAluout r
  (s.opened w).retire (some o) c (c.setPc (nextPc c.pc)) .fetch0

/-- What the window of an instruction can be, by the kind of its name. -/
inductive ExecCase (i : Instr) (s : State) : Host.Outcome State Fault Refusal → Prop where
  | result (r : Word) (hop : writesAluout (some i.op) = true) (hr : s.result i.op i.fields = some r) :
      ExecCase i s (.next (s.afterResult i.op i.fields r))
  | taken (hop : isBranch (some i.op) = true) (hr : s.result i.op i.fields = some 1) :
      ExecCase i s (.next (s.afterTaken i.op i.fields))
  | notTaken (r : Word) (hop : isBranch (some i.op) = true) (hr : s.result i.op i.fields = some r) (hne : r ≠ 1) :
      ExecCase i s (.next (s.afterNotTaken i.op i.fields r))
  | load (ea : Addr) (hop : i.op = .ld) (hea : dataAddress s.cfg (s.operand i.fields i.fields.src1) = some ea) :
      ExecCase i s (.next (s.afterLoad i.fields ea))
  | store (ea : Addr) (hop : i.op = .st) (hea : dataAddress s.cfg (s.operand i.fields i.fields.src1) = some ea) :
      ExecCase i s (.next (s.afterStore i.fields ea))
  | refused (hop : i.op = .ld ∨ i.op = .st) (hea : dataAddress s.cfg (s.operand i.fields i.fields.src1) = none) :
      ExecCase i s (.refused (.dataAddressOutOfRange (s.operand i.fields i.fields.src1)))
  | halt (hop : i.op = .hlt) : ExecCase i s (.next (s.afterHalt i.fields))

theorem branchWindow_case {i : Instr} {s : State} {r : Word} (hop : isBranch (some i.op) = true)
    (hr : s.result i.op i.fields = some r) : ExecCase i s (s.branchWindow i.op i.fields r) := by
  unfold State.branchWindow
  split
  next h =>
    subst h
    exact .taken hop hr
  next h => exact .notTaken r hop hr h

theorem exec_ld_of_no_dataAddress {f : Fields} {s : State} (hea : dataAddress s.cfg (s.operand f f.src1) = none) :
    exec (.ld f) s = .refused (.dataAddressOutOfRange (s.operand f f.src1)) := by
  show execLd f s = _
  simp only [execLd, hea]

theorem exec_st_of_no_dataAddress {f : Fields} {s : State} (hea : dataAddress s.cfg (s.operand f f.src1) = none) :
    exec (.st f) s = .refused (.dataAddressOutOfRange (s.operand f f.src1)) := by
  show execSt f s = _
  simp only [execSt, hea]

theorem exec_cases (i : Instr) (s : State) : ExecCase i s (exec i s) := by
  cases i with
  | add | sub | lsf | rsf | and | or | xor | lhi => exact .result _ rfl rfl
  | jlt | jle | jeq | jne => apply branchWindow_case <;> rfl
  | jin f => exact branchWindow_case (i := .jin f) (r := aluJin) rfl rfl
  | ld f =>
    cases hea : dataAddress s.cfg (s.operand f f.src1) with
    | none => rw [exec_ld_of_no_dataAddress hea]; exact .refused (.inl rfl) hea
    | some ea => rw [exec_ld_of_dataAddress hea]; exact .load ea rfl hea
  | st f =>
    cases hea : dataAddress s.cfg (s.operand f f.src1) with
    | none => rw [exec_st_of_no_dataAddress hea]; exact .refused (.inr rfl) hea
    | some ea => rw [exec_st_of_dataAddress hea]; exact .store ea rfl hea
  | hlt f => exact .halt rfl

theorem execCase_of_exec {i : Instr} {s : State} {o : Host.Outcome State Fault Refusal} (h : exec i s = o) :
    ExecCase i s o := h ▸ exec_cases i s

/-! The step in FETCH0, by what the word at `pc` is. -/

theorem step_of_decoded {s : State} {i : Instr} (hst : s.cur.controlState = .fetch0)
    (hdecode : decode s.cfg.opMap (s.readWord s.cur.pc) = .ok i) : step s = exec i s := by
  rw [step_fetch0 hst]
  simp only [runWindow, State.fetch, hdecode]

/-- Settles O25. -/
theorem stepRunsDecodedInstruction : Obligations.StepRunsDecodedInstruction := by
  intro s i hst hdecode
  exact step_of_decoded hst hdecode

/-! A window tick by tick: the snapshot `c` beside the control state and the counts. -/

/-- A state `k` ticks into a window, in the control state `st`, with the snapshot `c` but for that state and the counts. -/
def State.inside (t : State) (st : ControlState) (k : Nat) (c : Snapshot) : State :=
  t.commit { c with controlState := st, cycleCounter := t.cfg.addCycles c.cycleCounter k }

@[simp] theorem State.inside_op (t : State) (st : ControlState) (k : Nat) (c : Snapshot) :
    (t.inside st k c).op = t.cfg.opMap.lookup c.opcode := rfl

/-- A commit of a snapshot that counts one tick more is one tick further inside the window. -/
theorem commit_counted_inside (t u : State) (st : ControlState) (k : Nat) (c : Snapshot) (hcfg : u.cfg = t.cfg) :
    u.commit { c with controlState := st, cycleCounter := t.cfg.addCycles (t.cfg.addCycles c.cycleCounter k) 1 }
      = u.inside st (k + 1) c := by
  rw [State.inside, Config.addCycles_addCycles, hcfg]

theorem tickFetch0_eq_inside (s : State) : tickFetch0 s = (s.opened s.fetch).inside .fetch1 1 s.cur := rfl

theorem tickFetch1_inside (t : State) (k : Nat) (c : Snapshot) :
    tickFetch1 (t.inside .fetch1 k c) = t.inside .decode0 (k + 1) { c with inst := t.readLatch } :=
  commit_counted_inside t t .decode0 k { c with inst := t.readLatch } rfl

theorem tickDecode0_inside (t : State) (k : Nat) (c : Snapshot) :
    tickDecode0 (t.inside .decode0 k c) = t.inside .decode1 (k + 1) (c.decodeFrom c.inst) :=
  commit_counted_inside t t .decode1 k (c.decodeFrom c.inst) rfl

/-- The snapshot with the operands DECODE1 selects for the name `o` (R68). -/
def Snapshot.selected (c : Snapshot) (o : Option Op) : Snapshot :=
  { c with
    alu0 := (selectOperands o c.regs c.immediate c.dst c.src0 c.src1).1
    alu1 := (selectOperands o c.regs c.immediate c.dst c.src0 c.src1).2 }

theorem tickDecode1_inside (t : State) (k : Nat) (c : Snapshot) :
    tickDecode1 (t.inside .decode1 k c)
      = t.inside .execute0 (k + 1) (c.selected (t.cfg.opMap.lookup c.opcode)) :=
  commit_counted_inside t t .execute0 k (c.selected (t.cfg.opMap.lookup c.opcode)) rfl

/-- The snapshot the window of the word `w` brings to EXECUTE0, but for the counts (R65 to R68). -/
def State.stagedFor (s : State) (w : Word) : Snapshot :=
  { s.cur.decodeFrom w with inst := w }.selected (s.cfg.opMap.lookup (wordOpcode w))

/-- The first four ticks of a window: the fetch, the decoding and the selection of the operands (R65 to R68). -/
theorem ticks_from_fetch0 (k : Nat) {s : State} (hst : s.cur.controlState = .fetch0) :
    ticks (k + 4) s = ticks k ((s.opened s.fetch).inside .execute0 4 (s.stagedFor s.fetch)) := by
  rw [ticks_succ_of_next _ (tick_fetch0 hst), tickFetch0_eq_inside,
    ticks_succ_of_next _ (tick_fetch1 rfl), tickFetch1_inside,
    ticks_succ_of_next _ (tick_decode0 rfl), tickDecode0_inside,
    ticks_succ_of_next _ (tick_decode1 rfl), tickDecode1_inside]
  rfl

theorem ticks_succ_of_refused {s : State} {r : Refusal} (k : Nat) (h : tick s = .refused r) :
    ticks (k + 1) s = .refused r := by
  simp [ticks, h]

/-- The snapshot with the ALU's result for its operands where the name `o` has one (R69). -/
def Snapshot.computed (c : Snapshot) (cfg : Config) (o : Option Op) : Snapshot :=
  c.setAluout ((alu cfg o c.alu0 c.alu1).getD c.aluout)

theorem aluComputed_inside (t : State) (st : ControlState) (k : Nat) (c : Snapshot) :
    (t.inside st k c).aluComputed
      = t.inside .execute1 (k + 1) (c.computed t.cfg (t.cfg.opMap.lookup c.opcode)) :=
  commit_counted_inside t t .execute1 k (c.computed t.cfg (t.cfg.opMap.lookup c.opcode)) rfl

theorem loadIssued_inside (t : State) (st : ControlState) (k : Nat) (c : Snapshot) (ea : Addr) :
    (t.inside st k c).loadIssued ea = (t.issueRead ea).inside .execute1 (k + 1) c :=
  commit_counted_inside t (t.issueRead ea) .execute1 k c rfl

/-- EXECUTE1 retires the window: its writes are those of `retire` with the cells, `pc` and the flag it resolves. -/
theorem executed_inside (t u : State) (c : Snapshot) (hcfg : u.cfg = t.cfg) :
    (t.inside .execute1 5 c).executed u
      = (u.setFlag (t.inside .execute1 5 c).resolvedFlag).retire (t.cfg.opMap.lookup c.opcode) c
          ((c.setRegs (t.inside .execute1 5 c).committedRegs).setPc (t.inside .execute1 5 c).resolvedPc)
          (afterExecute1 (t.cfg.opMap.lookup c.opcode)) := by
  have hcount : u.cfg.addCycles c.cycleCounter 6 = t.cfg.addCycles (t.cfg.addCycles c.cycleCounter 5) 1 := by
    rw [hcfg, Config.addCycles_addCycles]
  rw [State.retire]
  show _ = State.commit _ {
    (c.setRegs (t.inside .execute1 5 c).committedRegs).setPc (t.inside .execute1 5 c).resolvedPc with
    controlState := afterExecute1 (t.inside .execute1 5 c).op, cycleCounter := u.cfg.addCycles c.cycleCounter 6 }
  rw [hcount]
  rfl

theorem State.setFlag_self {t : State} {b : Bool} (h : t.branchTaken = b) : t.setFlag b = t := by
  subst h
  rfl

/-- EXECUTE1 with no branch taken, in a window whose flag is clear: the cells are committed and `pc` moves on (R71, R72). -/
theorem tick_retires_of_not_taken {t u : State} {c : Snapshot} {o : Option Op} {cells : Vector Word 8}
    {st : ControlState}
    (htick : tick (t.inside .execute1 5 c) = .next ((t.inside .execute1 5 c).executed u))
    (ho : t.cfg.opMap.lookup c.opcode = o) (hcfg : u.cfg = t.cfg) (hflag : t.branchTaken = false)
    (hflag' : u.branchTaken = false) (hnot : branchTakenNow o c.aluout = false)
    (hcells : (t.inside .execute1 5 c).committedRegs = cells) (hafter : afterExecute1 o = st) :
    tick (t.inside .execute1 5 c) = .next (u.retire o c ((c.setRegs cells).setPc (nextPc c.pc)) st) := by
  subst ho hcells hafter
  obtain ⟨hkept, hpc⟩ := State.resolved_of_not_taken (s := t.inside .execute1 5 c) hnot
  rw [htick, executed_inside t u c hcfg, hkept, hpc hflag]
  show Host.Outcome.next ((u.setFlag t.branchTaken).retire _ _ _ _) = _
  rw [hflag, State.setFlag_self hflag']
  rfl

/-- The snapshot the window of the instruction `i` brings to EXECUTE0, but for the counts. -/
def State.stagedOf (s : State) (i : Instr) : Snapshot :=
  s.cur.staged (encode s.cfg.opMap i) (s.operands i.op i.fields).1 (s.operands i.op i.fields).2

theorem State.operands_of_ne_lhi {o : Op} (h : o ≠ .lhi) (s : State) (f : Fields) :
    s.operands o f = (s.operand f f.src0, s.operand f f.src1) := by
  rw [State.operands, selectOperands_eq, if_neg (by simpa using h), if_neg (by simpa using h)]
  rfl

/-- A branch-family instruction stages its two sources (R68, R95). -/
theorem State.stagedOf_of_isBranch {s : State} {i : Instr} (h : isBranch (some i.op) = true) :
    s.stagedOf i = s.sourcesStaged i := by
  have hlhi : i.op ≠ .lhi := fun hop => by simp [hop, isBranch] at h
  rw [State.stagedOf, State.operands_of_ne_lhi hlhi]
  rfl

theorem wordDst_encode (m : OpMap) (i : Instr) : wordDst (encode m i) = i.fields.dst := wordDst_encodeFields _ _

theorem State.stagedFor_eq (s : State) (w : Word) :
    s.stagedFor w = s.cur.staged w
      (selectOperands (s.cfg.opMap.lookup (wordOpcode w)) s.cur.regs (immediateOf (wordFields w).imm16)
        (wordFields w).dst (wordFields w).src0 (wordFields w).src1).1
      (selectOperands (s.cfg.opMap.lookup (wordOpcode w)) s.cur.regs (immediateOf (wordFields w).imm16)
        (wordFields w).dst (wordFields w).src0 (wordFields w).src1).2 := rfl

/-- What the decoder reads from an instruction's word is the instruction's own name and fields. -/
theorem State.stagedFor_encode {s : State} {i : Instr}
    (hlookup : s.cfg.opMap.lookup (s.cfg.opMap.code i.op) = some i.op) :
    s.stagedFor (encode s.cfg.opMap i) = s.stagedOf i := by
  rw [State.stagedFor_eq, wordOpcode_encode, hlookup, wordFields_encode]
  rfl

/-! EXECUTE0 and EXECUTE1 of a window whose flag is clear, by the kind of the name it decodes to. -/

section
variable {t : State} {c : Snapshot} {o : Option Op}

/-- EXECUTE0 of every name but a load's. -/
theorem tick_inside_of_ne_ld (hld : t.cfg.opMap.lookup c.opcode ≠ some .ld) :
    tick (t.inside .execute0 4 c)
      = .next (t.inside .execute1 5 (c.computed t.cfg (t.cfg.opMap.lookup c.opcode))) := by
  rw [tick_aluComputed (s := t.inside .execute0 4 c) rfl hld, aluComputed_inside]

theorem Snapshot.computed_of_some {c : Snapshot} {cfg : Config} {r : Word} (hr : alu cfg o c.alu0 c.alu1 = some r) :
    c.computed cfg o = c.setAluout r := by
  rw [Snapshot.computed, hr]
  rfl

theorem Snapshot.computed_of_none {c : Snapshot} {cfg : Config} (hr : alu cfg o c.alu0 c.alu1 = none) :
    c.computed cfg o = c := by
  rw [Snapshot.computed, hr]
  rfl

theorem ticks_inside_of_result {r : Word} (hflag : t.branchTaken = false) (ho : t.cfg.opMap.lookup c.opcode = o)
    (hop : writesAluout o = true) (hr : alu t.cfg o c.alu0 c.alu1 = some r) :
    ticks 2 (t.inside .execute0 4 c) = .next (t.retire o (c.setAluout r)
      (((c.setAluout r).setRegs (setCell c.regs c.dst r)).setPc (nextPc c.pc)) .fetch0) := by
  obtain ⟨hbranch, hld, hst, hhlt⟩ := other_kinds_of_writesAluout hop
  subst ho
  have htick := tick_retires_of_not_taken (tick_complete (s := t.inside .execute1 5 (c.setAluout r)) rfl hst hhlt)
    rfl rfl hflag hflag (by simp [branchTakenNow, hbranch]) (State.committedRegs_of_writesAluout hop)
    (afterExecute1_of_ne_hlt hhlt)
  rw [ticks_succ_of_next _ (tick_inside_of_ne_ld hld), Snapshot.computed_of_some hr, ticks_succ_of_next _ htick]
  rfl

theorem ticks_inside_of_taken (ho : t.cfg.opMap.lookup c.opcode = o)
    (hop : isBranch o = true) (hr : alu t.cfg o c.alu0 c.alu1 = some 1) :
    ticks 2 (t.inside .execute0 4 c) = .next ((t.setFlag true).retire o (c.setAluout 1)
      (((c.setAluout 1).setRegs (setCell c.regs linkIx (linkOf c.pc))).setPc (targetOf c.immediate)) .fetch0) := by
  obtain ⟨-, hld, hst, hhlt⟩ := other_kinds_of_isBranch hop
  subst ho
  have htick := tick_complete (s := t.inside .execute1 5 (c.setAluout 1)) rfl hst hhlt
  have hcells : (t.inside .execute1 5 (c.setAluout 1)).committedRegs = setCell c.regs linkIx (linkOf c.pc) :=
    (State.committedRegs_of_isBranch (s := t.inside .execute1 5 (c.setAluout 1)) hop).trans (if_pos rfl)
  have hafter : afterExecute1 (t.cfg.opMap.lookup (c.setAluout 1).opcode) = .fetch0 := afterExecute1_of_ne_hlt hhlt
  obtain ⟨hflag, hpc⟩ := State.resolved_of_taken (s := t.inside .execute1 5 (c.setAluout 1))
    ((branchTakenNow_iff _ _).mpr ⟨hop, rfl⟩)
  rw [executed_inside t (t.inside .execute1 5 (c.setAluout 1)) _ rfl, hflag, hpc, hcells, hafter] at htick
  rw [ticks_succ_of_next _ (tick_inside_of_ne_ld hld), Snapshot.computed_of_some hr, ticks_succ_of_next _ htick]
  rfl

theorem ticks_inside_of_notTaken {r : Word} (hflag : t.branchTaken = false) (ho : t.cfg.opMap.lookup c.opcode = o)
    (hop : isBranch o = true) (hr : alu t.cfg o c.alu0 c.alu1 = some r) (hne : r ≠ 1) :
    ticks 2 (t.inside .execute0 4 c)
      = .next (t.retire o (c.setAluout r) ((c.setAluout r).setPc (nextPc c.pc)) .fetch0) := by
  obtain ⟨-, hld, hst, hhlt⟩ := other_kinds_of_isBranch hop
  subst ho
  have htick := tick_retires_of_not_taken (tick_complete (s := t.inside .execute1 5 (c.setAluout r)) rfl hst hhlt)
    rfl rfl hflag hflag (Bool.eq_false_iff.mpr fun h => hne ((branchTakenNow_iff _ _).mp h).2)
    ((State.committedRegs_of_isBranch (s := t.inside .execute1 5 (c.setAluout r)) hop).trans (if_neg hne))
    (afterExecute1_of_ne_hlt hhlt)
  rw [ticks_succ_of_next _ (tick_inside_of_ne_ld hld), Snapshot.computed_of_some hr, ticks_succ_of_next _ htick]
  rfl

theorem ticks_inside_of_load {ea : Addr} (hflag : t.branchTaken = false) (ho : t.cfg.opMap.lookup c.opcode = some .ld)
    (hea : dataAddress t.cfg c.alu1 = some ea) :
    ticks 2 (t.inside .execute0 4 c) = .next ((t.issueRead ea).retire (some .ld) c
      ((c.setRegs (setCell c.regs c.dst (t.readWord ea))).setPc (nextPc c.pc)) .fetch0) := by
  have hread := tick_loadIssued (s := t.inside .execute0 4 c) rfl ho hea
  rw [loadIssued_inside] at hread
  have htick := tick_retires_of_not_taken
    (tick_complete (s := (t.issueRead ea).inside .execute1 5 c) rfl (by simp [ho]) (by simp [ho]))
    ho rfl hflag hflag rfl (State.committedRegs_of_ld ho) rfl
  rw [ticks_succ_of_next _ hread, ticks_succ_of_next _ htick]
  rfl

theorem ticks_inside_of_store {ea : Addr} (hflag : t.branchTaken = false) (ho : t.cfg.opMap.lookup c.opcode = some .st)
    (hea : dataAddress t.cfg c.alu1 = some ea) :
    ticks 2 (t.inside .execute0 4 c)
      = .next ((t.issueWrite ea c.alu0).retire (some .st) c (c.setPc (nextPc c.pc)) .fetch0) := by
  have htick := tick_retires_of_not_taken
    (tick_store (s := t.inside .execute1 5 c) rfl ho hea)
    ho rfl hflag hflag rfl (State.committedRegs_of_writesNone (.inl ho)) rfl
  rw [ticks_succ_of_next _ (tick_inside_of_ne_ld (by simp [ho])), ho, Snapshot.computed_of_none rfl,
    ticks_succ_of_next _ htick]
  rfl

theorem ticks_inside_of_halt (hflag : t.branchTaken = false) (ho : t.cfg.opMap.lookup c.opcode = some .hlt) :
    ticks 2 (t.inside .execute0 4 c)
      = .next (t.haltEvents.retire (some .hlt) c (c.setPc (nextPc c.pc)) .idle) := by
  have htick := tick_retires_of_not_taken
    (tick_halt (s := t.inside .execute1 5 c) rfl ho)
    ho rfl hflag hflag rfl (State.committedRegs_of_writesNone (.inr (.inl ho))) rfl
  rw [ticks_succ_of_next _ (tick_inside_of_ne_ld (by simp [ho])), ho, Snapshot.computed_of_none rfl,
    ticks_succ_of_next _ htick]
  rfl

theorem ticks_inside_of_unrecognised (hflag : t.branchTaken = false) (ho : t.cfg.opMap.lookup c.opcode = none) :
    ticks 2 (t.inside .execute0 4 c) = .next (t.retire none c (c.setPc (nextPc c.pc)) .fetch0) := by
  have htick := tick_retires_of_not_taken
    (tick_complete (s := t.inside .execute1 5 c) rfl (by simp [ho]) (by simp [ho]))
    ho rfl hflag hflag rfl (State.committedRegs_of_writesNone (.inr (.inr ho))) rfl
  rw [ticks_succ_of_next _ (tick_inside_of_ne_ld (by simp [ho])), ho, Snapshot.computed_of_none rfl,
    ticks_succ_of_next _ htick]
  rfl

/-- A load is refused in EXECUTE0, a store in EXECUTE1 (log entry 8). -/
theorem ticks_inside_of_addressless (ho : t.cfg.opMap.lookup c.opcode = some .ld ∨ t.cfg.opMap.lookup c.opcode = some .st)
    (hea : dataAddress t.cfg c.alu1 = none) :
    ticks 2 (t.inside .execute0 4 c) = .refused (.dataAddressOutOfRange c.alu1) := by
  rcases ho with ho | ho
  · exact ticks_succ_of_refused _ (tick_of_addressless (s := t.inside .execute0 4 c) ⟨hea, .inl ⟨rfl, ho⟩⟩)
  · have htick := tick_of_addressless (s := t.inside .execute1 5 c) ⟨hea, .inr ⟨rfl, ho⟩⟩
    rw [ticks_succ_of_next _ (tick_inside_of_ne_ld (by simp [ho])), ho, Snapshot.computed_of_none rfl,
      ticks_succ_of_refused _ htick]
    rfl

end

/-- The last two ticks of the window of an instruction that the decoder names as itself. -/
theorem ticks_inside_eq_exec {s : State} {i : Instr}
    (hlookup : s.cfg.opMap.lookup (s.cfg.opMap.code i.op) = some i.op) :
    ticks 2 ((s.opened (encode s.cfg.opMap i)).inside .execute0 4 (s.stagedOf i)) = exec i s := by
  let t := s.opened (encode s.cfg.opMap i)
  have ho : t.cfg.opMap.lookup (s.stagedOf i).opcode = some i.op := by
    show s.cfg.opMap.lookup (wordOpcode (encode s.cfg.opMap i)) = _
    rw [wordOpcode_encode, hlookup]
  generalize hexec : exec i s = outcome
  have hdst : (s.stagedOf i).dst = i.fields.dst := wordDst_encode _ _
  cases execCase_of_exec hexec with
  | result r hop hr =>
    rw [ticks_inside_of_result (t := t) rfl ho hop hr, hdst]
    rfl
  | taken hop hr =>
    rw [ticks_inside_of_taken (t := t) ho hop hr, State.stagedOf_of_isBranch hop]
    rfl
  | notTaken r hop hr hne =>
    rw [ticks_inside_of_notTaken (t := t) rfl ho hop hr hne, State.stagedOf_of_isBranch hop]
    rfl
  | load ea hop hea =>
    obtain ⟨f, rfl⟩ : ∃ f, i = .ld f := ⟨_, Instr.eq_make hop⟩
    rw [ticks_inside_of_load (t := t) rfl ho hea, hdst]
    rfl
  | store ea hop hea =>
    obtain ⟨f, rfl⟩ : ∃ f, i = .st f := ⟨_, Instr.eq_make hop⟩
    exact ticks_inside_of_store (t := t) rfl ho hea
  | refused hop hea =>
    have hstaged : s.stagedOf i = s.sourcesStaged i := by
      rcases hop with hop | hop
      · obtain ⟨f, rfl⟩ : ∃ f, i = .ld f := ⟨_, Instr.eq_make hop⟩; rfl
      · obtain ⟨f, rfl⟩ : ∃ f, i = .st f := ⟨_, Instr.eq_make hop⟩; rfl
    rw [hstaged] at ho ⊢
    exact ticks_inside_of_addressless (t := t) (by simpa [ho] using hop) hea
  | halt hop =>
    obtain ⟨f, rfl⟩ : ∃ f, i = .hlt f := ⟨_, Instr.eq_make hop⟩
    exact ticks_inside_of_halt (t := t) rfl ho

/-- Settles O24: the word at `pc` is an instruction or none, and EXECUTE0 and EXECUTE1 go by which of them it is. -/
theorem sixTicksAreOneWindow : Obligations.SixTicksAreOneWindow := by
  intro s hst
  rw [ticks_from_fetch0 2 hst]
  cases hdecode : decode s.cfg.opMap s.fetch with
  | ok i =>
    have hlookup := lookup_code_of_decode hdecode
    rw [step_of_decoded hst hdecode, ← encodeOfDecode _ _ _ hdecode, State.stagedFor_encode hlookup]
    exact ticks_inside_eq_exec hlookup
  | error e =>
    have hlookup := lookup_of_decode_error hdecode
    rw [step_of_unrecognised hst hdecode,
      ticks_inside_of_unrecognised (t := s.opened s.fetch) (c := s.stagedFor s.fetch) rfl hlookup,
      State.stagedFor_eq, hlookup]
    rfl

end Sys2Proof.Machine
end

section
/-!
What a window is refused for, keeps and changes (spec/20_memory.md R31, R32, R42, R44; spec/43_branch_jump.md R103;
spec/60_exceptions.md R110; spec/70_reset_and_hazards.md R128): read off the inversion of `exec`, kind by kind.
-/
namespace Sys2Proof.Machine

/-! Data addresses (R32). -/

theorem highHalf_eq_zero_iff (v : Word) : v.extractLsb' 16 16 = 0 ↔ v.toNat < 65536 := by
  rw [← BitVec.toNat_inj, BitVec.extractLsb'_toNat, Nat.shiftRight_eq_div_pow]
  have := v.isLt
  simp
  omega

theorem lowHalf_toNat (v : Word) : (v.extractLsb' 0 16).toNat = v.toNat % 65536 := by
  simp [BitVec.extractLsb'_toNat]

theorem dataAddress_refuse {c : Config} (h : c.dataAddrOor = .refuse) (v : Word) :
    dataAddress c v = if v.toNat < 65536 then some (v.extractLsb' 0 16) else none := by
  simp only [dataAddress, h, highHalf_eq_zero_iff]

theorem dataAddress_eq_none_iff (c : Config) (v : Word) :
    dataAddress c v = none ↔ c.dataAddrOor = .refuse ∧ 65536 ≤ v.toNat := by
  cases h : c.dataAddrOor with
  | truncate => simp [dataAddress_truncate h]
  | refuse => simp [dataAddress_refuse h]

theorem eq_lowHalf_of_dataAddress {c : Config} {v : Word} {ea : Addr} (hea : dataAddress c v = some ea) :
    ea = v.extractLsb' 0 16 := by
  cases h : c.dataAddrOor with
  | truncate => simpa [dataAddress_truncate h, eq_comm] using hea
  | refuse =>
    rw [dataAddress_refuse h] at hea
    split at hea
    · exact (Option.some.inj hea).symm
    · cases hea

/-- Settles O9. -/
theorem dataAddressOfOperand : Obligations.DataAddressOfOperand := by
  intro c v
  refine ⟨fun ea hea => ?_, dataAddress_eq_none_iff c v⟩
  rw [eq_lowHalf_of_dataAddress hea, lowHalf_toNat]

/-- An access has an address under DATA_ADDR_OOR = truncate (R32). -/
theorem dataAddress_ne_none {c : Config} (h : c.dataAddrOor = .truncate) (v : Word) : dataAddress c v ≠ none := by
  rw [dataAddress_truncate h]
  exact Option.some_ne_none _

/-! Refusals. -/

/-- Settles O28. A load and a store without an address are the only windows refused. -/
theorem refusalOfAWindow : Obligations.RefusalOfAWindow := by
  intro i s
  rw [← dataAddress_eq_none_iff]
  constructor
  · constructor
    · rintro ⟨r, hr⟩
      cases execCase_of_exec hr with
      | refused hop hea => exact ⟨hop, hea⟩
    · rintro ⟨hop, hea⟩
      rcases hop with hop | hop
      · obtain ⟨f, rfl⟩ : ∃ f, i = .ld f := ⟨_, Instr.eq_make hop⟩
        exact ⟨_, exec_ld_of_no_dataAddress hea⟩
      · obtain ⟨f, rfl⟩ : ∃ f, i = .st f := ⟨_, Instr.eq_make hop⟩
        exact ⟨_, exec_st_of_no_dataAddress hea⟩
  · intro r hr
    cases execCase_of_exec hr with
    | refused => rfl

/-- Settles O27: under truncate every access has an address, so neither a window nor a tick has anything to refuse. -/
theorem nothingStopsUnderTruncate : Obligations.NothingStopsUnderTruncate := by
  intro s htruncate
  by_cases hst : s.cur.controlState = .fetch0
  · cases hdecode : decode s.cfg.opMap (s.readWord s.cur.pc) with
    | error e => exact ⟨_, step_of_unrecognised hst hdecode⟩
    | ok i =>
      rw [step_of_decoded hst hdecode]
      generalize hexec : exec i s = outcome
      cases execCase_of_exec hexec with
      | refused _ hea => exact absurd hea (dataAddress_ne_none htruncate _)
      | result | taken | notTaken | load | store | halt => exact ⟨_, rfl⟩
  · rw [step_of_ne_fetch0 hst]
    rcases tick_cases s with ⟨⟨hea, -⟩, -⟩ | ⟨t, ht, -⟩
    · exact absurd hea (dataAddress_ne_none htruncate _)
    · exact ⟨t, ht⟩

/-! What ends a run. -/

/-- A window that is no halt's goes on in FETCH0 with the start flag as it was. -/
theorem goes_on_of_exec {i : Instr} {s t : State} (h : exec i s = .next t) (hop : i.op ≠ .hlt) :
    t.cur.controlState = .fetch0 ∧ t.start = s.start := by
  cases execCase_of_exec h with
  | halt hhlt => exact absurd hhlt hop
  | result | taken | notTaken | load | store => exact ⟨rfl, rfl⟩

/-- Settles O52. -/
theorem onlyHaltEndsARun : Obligations.OnlyHaltEndsARun := by
  intro s t hidle hstep hend
  by_cases hst : s.cur.controlState = .fetch0
  · left
    refine ⟨hst, ?_⟩
    cases hdecode : decode s.cfg.opMap (s.readWord s.cur.pc) with
    | error e =>
      cases (step_of_unrecognised hst hdecode).symm.trans hstep
      simp [State.afterUnrecognised] at hend
    | ok i =>
      rw [step_of_decoded hst hdecode] at hstep
      by_cases hop : i.op = .hlt
      · exact ⟨i.fields, congrArg _ (Instr.eq_make hop)⟩
      · obtain ⟨hfetch0, hstart⟩ := goes_on_of_exec hstep hop
        simp [hfetch0, hstart] at hend
  · right
    rw [step_of_ne_fetch0 hst] at hstep
    cases ticked_of_tick hstep with
    | idle h => exact absurd h hidle
    | halt hst hop => exact ⟨hst, hop⟩
    | fetch0 | fetch1 | decode0 | decode1 | load | compute =>
      rcases hend with h | h
      · cases h
      · exact absurd rfl h
    | store ea hst hop => simp [afterExecute1, hop] at hend
    | complete hst _ hop => simp [afterExecute1_of_ne_hlt hop] at hend

/-! The one write of a window. -/

theorem exec_keeps_cfg {i : Instr} {s t : State} (h : exec i s = .next t) : t.cfg = s.cfg := by
  cases execCase_of_exec h <;> rfl

/-- A store is the only way for memory to change (R31). -/
theorem exec_keeps_mem {i : Instr} {s t : State} (h : exec i s = .next t) (hop : i.op ≠ .st) : t.mem = s.mem := by
  cases execCase_of_exec h with
  | store _ hst => exact absurd hst hop
  | result | taken | notTaken | load | halt => rfl

/-- A store changes no register, and no word but the one at its address (R91). -/
theorem exec_store_keeps {i : Instr} {s t : State} (h : exec i s = .next t) (hop : i.op = .st) :
    t.cur.regs = s.cur.regs ∧ ∀ a : Addr,
      some a ≠ dataAddress s.cfg (s.operand i.fields i.fields.src1) → t.readWord a = s.readWord a := by
  obtain ⟨f, rfl⟩ : ∃ f, i = .st f := ⟨_, Instr.eq_make hop⟩
  cases execCase_of_exec h with
  | result _ hw => cases hw
  | taken hb | notTaken _ hb => cases hb
  | load _ hld => cases hld
  | halt hhlt => cases hhlt
  | store ea _ hea =>
    refine ⟨rfl, fun a ha => ?_⟩
    rw [hea] at ha
    rw [State.readWord_afterStore, if_neg fun h => ha (congrArg some h)]

/-- The only cell an instruction can write: the link register for a branch, the destination for every other (R15). -/
def writtenIx (i : Instr) : RegIx := if isBranch (some i.op) then linkIx else i.fields.dst

theorem writtenIx_of_isBranch {i : Instr} (h : isBranch (some i.op) = true) : writtenIx i = linkIx := if_pos h

theorem writtenIx_of_not_isBranch {i : Instr} (h : isBranch (some i.op) = false) : writtenIx i = i.fields.dst :=
  if_neg (ne_true_of_eq_false h)

theorem otherCellsKept_of_setCell {s t : State} {k : RegIx} {v : Word} (h : t.cur.regs = setCell s.cur.regs k v) :
    OtherCellsKept k s t := by
  intro j hj
  rw [h, cell_setCell_of_ne _ _ _ _ hj]

theorem exec_keeps_other_cells {i : Instr} {s t : State} (h : exec i s = .next t) : OtherCellsKept (writtenIx i) s t := by
  cases execCase_of_exec h with
  | result r hop =>
    rw [writtenIx_of_not_isBranch (other_kinds_of_writesAluout hop).1]
    exact otherCellsKept_of_setCell (v := r) rfl
  | taken hop =>
    rw [writtenIx_of_isBranch hop]
    exact otherCellsKept_of_setCell (v := linkOf s.cur.pc) rfl
  | load ea hop =>
    rw [writtenIx_of_not_isBranch (by rw [hop]; rfl)]
    exact s.afterLoad_otherCellsKept i.fields ea
  | notTaken | store | halt => exact fun _ _ => rfl

/-- Settles O34. -/
theorem oneWriteAWindow : Obligations.OneWriteAWindow := by
  intro i s t h
  exact ⟨exec_keeps_cfg h, exec_keeps_mem h, exec_store_keeps h, writtenIx i, writtenIx_of_isBranch,
    writtenIx_of_not_isBranch, exec_keeps_other_cells h⟩

/-! A store and what comes after it. -/

/-- Settles O44. -/
theorem storeThenLoadYieldsStoredValue : Obligations.StoreThenLoadYieldsStoredValue := by
  intro f g s t u ea hstore hload heaStore heaLoad
  obtain rfl : s.afterStore f ea = t := Host.Outcome.next.inj ((exec_st_of_dataAddress heaStore).symm.trans hstore)
  obtain rfl : (s.afterStore f ea).afterLoad g ea = u :=
    Host.Outcome.next.inj ((exec_ld_of_dataAddress heaLoad).symm.trans hload)
  rw [State.cell_afterLoad_dst, State.readWord_afterStore, if_pos rfl]

/-- Settles O45. -/
theorem storeIntoNextInstructionIsFetched : Obligations.StoreIntoNextInstructionIsFetched := by
  intro f s t hstore hea i hdecode
  obtain rfl : s.afterStore f (s.cur.pc + 1) = t :=
    Host.Outcome.next.inj ((exec_st_of_dataAddress hea).symm.trans hstore)
  refine step_of_decoded rfl ?_
  show decode s.cfg.opMap ((s.afterStore f (s.cur.pc + 1)).readWord (s.cur.pc + 1)) = _
  rw [State.readWord_afterStore, if_pos rfl, hdecode]

/-! Equal sources (R103). -/

theorem lessThan_self (c : Config) (a : Word) : lessThan c a a = false := by
  cases h : c.cmpSigned <;> simp [lessThan, h, BitVec.slt, BitVec.ult]

theorem lessOrEqual_self (c : Config) (a : Word) : lessOrEqual c a a = true := by
  cases h : c.cmpSigned <;> simp [lessOrEqual, h, BitVec.sle, BitVec.ule]

/-- A branch whose relation holds leads to the immediate field. -/
theorem pc_of_relation_holds {i : Instr} {s : State} {holds : Bool}
    (hexec : exec i s = s.branchWindow i.op i.fields (relationResult holds)) (h : holds = true) :
    ∃ t, exec i s = .next t ∧ t.cur.pc = i.fields.imm16 := by
  obtain ⟨t, ht, -, hbranches⟩ := completes_of_branchWindow hexec (iff_true_intro h)
  exact ⟨t, ht, hbranches.pcTaken trivial⟩

/-- A branch whose relation fails leads to the next address and writes no register. -/
theorem pc_of_relation_fails {i : Instr} {s : State} {holds : Bool}
    (hexec : exec i s = s.branchWindow i.op i.fields (relationResult holds)) (h : holds = false) :
    ∃ t, exec i s = .next t ∧ t.cur.pc = s.cur.pc + 1 ∧ t.cur.regs = s.cur.regs := by
  subst h
  exact ⟨_, hexec, rfl, rfl⟩

/-- Settles O50: equal indices read equal operands, on which each relation is decided. -/
theorem equalSourcesDecideBranches : Obligations.EqualSourcesDecideBranches := by
  intro f s hsrc
  refine ⟨pc_of_relation_holds (exec_jeq f s) ?jeq, pc_of_relation_holds (exec_jle f s) ?jle,
    pc_of_relation_fails (exec_jne f s) ?jne, pc_of_relation_fails (exec_jlt f s) ?jlt⟩
  case jeq => rw [hsrc, beq_self_eq_true]
  case jle => rw [hsrc, lessOrEqual_self]
  case jne => rw [hsrc, bne_self_eq_false]
  case jlt => rw [hsrc, lessThan_self]

/-! Ignored fields (R46, R49): a window writes what its operands, its destination and its target make of it, and an
ignored field reaches none of them. -/

/-- An operand depends on the immediate field only through index 1 (R60). -/
theorem State.operand_congr (s : State) {f g : Fields} {k : RegIx} (himm : k = 1 → f.imm16 = g.imm16) :
    s.operand f k = s.operand g k := by
  by_cases hk : k = 1
  · rw [State.operand, State.operand, himm hk]
  · simp only [State.operand, opnd, if_neg hk]

/-- The two sources of an instruction that ignores its immediate unless one of them names it (R49). -/
theorem State.sources_congr (s : State) {f g : Fields} (hsrc0 : f.src0 = g.src0) (hsrc1 : f.src1 = g.src1)
    (himm : (f.src0 != 1 && f.src1 != 1) = false → f.imm16 = g.imm16) :
    s.operand f f.src0 = s.operand g g.src0 ∧ s.operand f f.src1 = s.operand g g.src1 := by
  rw [← hsrc0, ← hsrc1]
  exact ⟨s.operand_congr fun h => himm (by simp [h]), s.operand_congr fun h => himm (by simp [h])⟩

theorem alike_next {R : State → State → Prop} {t t' : State} (h : R t t') : Alike R (.next t) (.next t') :=
  .inl ⟨t, t', rfl, rfl, h⟩

theorem alike_refused (R : State → State → Prop) (r : Refusal) : Alike R (.refused r) (.refused r) :=
  .inr ⟨r, rfl, rfl⟩

/-- The ends of two windows are the same to a program where the cells, `pc` and memory are: a window counts, retires and
leaves the flags alike whatever its word. -/
theorem sameArchitecture_retire {u u' : State} {o o' : Option Op} {c c' n n' : Snapshot} {st : ControlState}
    (hregs : n.regs = n'.regs) (hpc : n.pc = n'.pc) (hmem : u.mem = u'.mem)
    (hcfg : u.cfg = u'.cfg := by simp) (hstart : u.start = u'.start := by simp)
    (hflag : u.branchTaken = u'.branchTaken := by simp) (hretired : u.retired = u'.retired := by simp)
    (hcount : c.cycleCounter = c'.cycleCounter := by simp) :
    SameArchitecture (u.retire o c n st) (u'.retire o' c' n' st) where
  cfg := hcfg
  regs := hregs
  pc := hpc
  mem := hmem
  start := hstart
  branchTaken := hflag
  cycleCounter := by simp [hcfg, hcount]
  controlState := rfl
  retired := by simp [hretired]

theorem aluWindow_alike {s : State} {o : Op} {f g : Fields} {a b r a' b' r' : Word} (hdst : f.dst = g.dst)
    (hr : r = r') : Alike SameArchitecture (s.aluWindow o f a b r) (s.aluWindow o g a' b' r') := by
  subst hr
  exact alike_next (sameArchitecture_retire (by simp [hdst]) (by simp) (by simp))

theorem branchWindow_alike {s : State} {o : Op} {f g : Fields} {r r' : Word} (himm : f.imm16 = g.imm16) (hr : r = r') :
    Alike SameArchitecture (s.branchWindow o f r) (s.branchWindow o g r') := by
  subst hr
  unfold State.branchWindow
  split
  · exact alike_next (sameArchitecture_retire (by simp) (by simp [wordImm16_encodeFields, himm]) (by simp))
  · exact alike_next (sameArchitecture_retire (by simp) (by simp) (by simp))

theorem exec_ld_alike {s : State} {f g : Fields} (hdst : f.dst = g.dst)
    (haddr : s.operand f f.src1 = s.operand g g.src1) :
    Alike SameArchitecture (exec (.ld f) s) (exec (.ld g) s) := by
  cases hea : dataAddress s.cfg (s.operand g g.src1) with
  | none =>
    rw [exec_ld_of_no_dataAddress hea, exec_ld_of_no_dataAddress (haddr ▸ hea), haddr]
    exact alike_refused _ _
  | some ea =>
    rw [exec_ld_of_dataAddress hea, exec_ld_of_dataAddress (haddr ▸ hea)]
    exact alike_next (sameArchitecture_retire (by simp [State.sourcesStaged, hdst]) (by simp [State.sourcesStaged])
      (by simp) (hcount := by simp [State.sourcesStaged]))

theorem exec_st_alike {s : State} {f g : Fields} (hdata : s.operand f f.src0 = s.operand g g.src0)
    (haddr : s.operand f f.src1 = s.operand g g.src1) :
    Alike SameArchitecture (exec (.st f) s) (exec (.st g) s) := by
  cases hea : dataAddress s.cfg (s.operand g g.src1) with
  | none =>
    rw [exec_st_of_no_dataAddress hea, exec_st_of_no_dataAddress (haddr ▸ hea), haddr]
    exact alike_refused _ _
  | some ea =>
    rw [exec_st_of_dataAddress hea, exec_st_of_dataAddress (haddr ▸ hea)]
    exact alike_next (sameArchitecture_retire (by simp [State.sourcesStaged]) (by simp [State.sourcesStaged])
      (by simp [hdata]) (hcount := by simp [State.sourcesStaged]))

/-- Settles O7, name by name: the table of R49 leaves alone what the name's window is written from. -/
theorem ignoredFieldsHaveNoEffect : Obligations.IgnoredFieldsHaveNoEffect := by
  intro i j s hop hdst hsrc0 hsrc1 himm
  rw [Instr.eq_make hop.symm]
  generalize j.fields = g at *
  cases i with
  | add f | sub f | lsf f | rsf f | and f | or f | xor f =>
    obtain ⟨ha, hb⟩ := s.sources_congr (hsrc0 rfl) (hsrc1 rfl) himm
    exact aluWindow_alike (hdst rfl) (congrArg₂ _ ha hb)
  | lhi f =>
    have himm16 : f.imm16 = g.imm16 := himm rfl
    have ha : s.operand f f.dst = s.operand g g.dst := (s.operand_congr fun _ => himm16).trans (congrArg _ (hdst rfl))
    exact aluWindow_alike (hdst rfl) (congrArg₂ aluLhi ha (congrArg immediateOf himm16))
  | ld f =>
    have hsrc1' : f.src1 = g.src1 := hsrc1 rfl
    refine exec_ld_alike (hdst rfl) ((s.operand_congr fun h => himm ?_).trans (congrArg _ hsrc1'))
    simp [Instr.ignored, h]
  | st f =>
    obtain ⟨ha, hb⟩ := s.sources_congr (hsrc0 rfl) (hsrc1 rfl) himm
    exact exec_st_alike ha hb
  | jlt f | jle f | jeq f | jne f =>
    obtain ⟨ha, hb⟩ := s.sources_congr (hsrc0 rfl) (hsrc1 rfl) fun _ => himm rfl
    exact branchWindow_alike (himm rfl) (congrArg₂ _ ha hb)
  | jin f =>
    show Alike _ (s.branchWindow .jin f aluJin) (s.branchWindow .jin g aluJin)
    exact branchWindow_alike (himm rfl) rfl
  | hlt f => exact alike_next (sameArchitecture_retire (by simp) (by simp) (by simp))

end Sys2Proof.Machine
end

section
/-!
Memory, reset and launch (spec/20_memory.md R30 to R40; spec/10_state.md R29; spec/70_reset_and_hazards.md R129, R130): the
canonical form of memory determines what it reads as and is determined by it, and the loader writes the image word by word.
-/
namespace Sys2Proof.Machine

/-! The canonical form of memory. -/

/-- Settles O57. -/
theorem writeThenRead : Obligations.WriteThenRead := by
  intro s a v
  exact ⟨fun b => State.readWord_writeWord s a b v, Memory.wf_write a v⟩

theorem Memory.wf_cons_iff {fill : Word} {c : Nat × Word} {m : Memory} :
    Memory.wf fill (c :: m) ↔ c.1 < memWords ∧ c.2 ≠ fill ∧ (∀ d ∈ m, c.1 < d.1) ∧ Memory.wf fill m := by
  simp only [Memory.wf, List.pairwise_cons, List.forall_mem_cons]
  tauto

theorem Memory.read_cons_self (fill : Word) (c : Nat × Word) (m : Memory) : Memory.read fill (c :: m) c.1 = c.2 := by
  simp [Memory.read]

/-- Below its least listed address a memory reads as the fill. -/
theorem Memory.read_cons_of_lt {fill : Word} {c : Nat × Word} {m : Memory} (h : Memory.wf fill (c :: m)) {a : Nat}
    (ha : a < c.1) : Memory.read fill (c :: m) a = fill := by
  obtain ⟨-, -, hleast, -⟩ := Memory.wf_cons_iff.mp h
  refine Memory.read_lt_head fill _ a fun d hd => ?_
  rcases List.mem_cons.mp hd with rfl | hd
  · exact ha
  · exact Nat.lt_trans ha (hleast d hd)

/-- The least listed address of a canonical memory is listed in every memory that reads alike, so it is not below theirs. -/
theorem Memory.not_lt_least_of_read_eq {fill : Word} {c d : Nat × Word} {m m' : Memory} (h : Memory.wf fill (c :: m))
    (h' : Memory.wf fill (d :: m'))
    (hread : ∀ a, a < memWords → Memory.read fill (c :: m) a = Memory.read fill (d :: m') a) : ¬ c.1 < d.1 := by
  intro hlt
  obtain ⟨hin, hne, -⟩ := Memory.wf_cons_iff.mp h
  refine hne ?_
  rw [← Memory.read_cons_self fill c m, hread _ hin, Memory.read_cons_of_lt h' hlt]

/-- A canonical memory that lists a word does not read as the fill everywhere. -/
theorem Memory.read_cons_ne_nil {fill : Word} {c : Nat × Word} {m : Memory} (h : Memory.wf fill (c :: m)) :
    ¬ ∀ a, a < memWords → Memory.read fill (c :: m) a = Memory.read fill [] a := by
  intro hread
  obtain ⟨hin, hne, -⟩ := Memory.wf_cons_iff.mp h
  exact hne ((Memory.read_cons_self fill c m).symm.trans (hread _ hin))

/-- Below the least listed address, at it and above it: what the tail of a canonical memory reads. -/
theorem Memory.read_tail {fill : Word} {c : Nat × Word} {m : Memory} (h : Memory.wf fill (c :: m)) (a : Nat) :
    Memory.read fill m a = if a = c.1 then fill else Memory.read fill (c :: m) a := by
  obtain ⟨-, -, hleast, -⟩ := Memory.wf_cons_iff.mp h
  split
  next ha =>
    subst ha
    exact Memory.read_lt_head fill m c.1 hleast
  next ha => simp [Memory.read, Ne.symm ha]

/-- Settles O58, by induction on both lists: their least listed addresses are one, and so are the words there. -/
theorem canonicalMemoryIsUnique : Obligations.CanonicalMemoryIsUnique := by
  intro fill m
  induction m with
  | nil =>
    intro m' _ h' hread
    cases m' with
    | nil => rfl
    | cons d m' => exact absurd (fun a ha => (hread a ha).symm) (Memory.read_cons_ne_nil h')
  | cons c m ih =>
    intro m' h h' hread
    cases m' with
    | nil => exact absurd hread (Memory.read_cons_ne_nil h)
    | cons d m' =>
      have haddr : c.1 = d.1 := by
        have hcd := Memory.not_lt_least_of_read_eq h h' hread
        have hdc := Memory.not_lt_least_of_read_eq h' h fun a ha => (hread a ha).symm
        omega
      obtain ⟨hin, -, -, htail⟩ := Memory.wf_cons_iff.mp h
      obtain ⟨-, -, -, htail'⟩ := Memory.wf_cons_iff.mp h'
      have hword : c.2 = d.2 := by
        rw [← Memory.read_cons_self fill c m, hread _ hin, haddr, Memory.read_cons_self]
      have hrest : m = m' := ih m' htail htail' fun a ha => by
        rw [Memory.read_tail h, Memory.read_tail h', haddr, hread a ha]
      rw [Prod.ext haddr hword, hrest]

/-! Reset. -/

theorem cell_replicate (v : Word) (i : RegIx) : cell (Vector.replicate 8 v) i = v := by
  simp [cell]

/-- Settles O55. -/
theorem resetValues : Obligations.ResetValues := by
  refine ⟨cell_replicate 0, ?_⟩
  exact ⟨rfl, rfl, rfl, rfl, rfl, rfl, rfl, rfl, rfl, rfl, rfl, rfl, rfl, rfl, fun _ => rfl⟩

/-! The loader. -/

/-- What the loader leaves alone, and the canonical form it keeps. -/
structure OnlyLoads (s t : State) : Prop where
  cfg : t.cfg = s.cfg
  cur : t.cur = s.cur
  nxt : t.nxt = s.nxt
  start : t.start = s.start
  branchTaken : t.branchTaken = s.branchTaken
  wf : s.mem.wf s.cfg.memFill → t.mem.wf s.cfg.memFill

theorem State.loadFrom_onlyLoads (s : State) (k : Nat) (ws : List Word) : OnlyLoads s (s.loadFrom k ws) := by
  induction ws generalizing s k with
  | nil => exact ⟨rfl, rfl, rfl, rfl, rfl, id⟩
  | cons w ws ih =>
    unfold State.loadFrom
    split
    · obtain ⟨hcfg, hcur, hnxt, hstart, hflag, hwf⟩ := ih (s.inject (BitVec.ofNat 16 k) w) (k + 1)
      exact ⟨hcfg, hcur, hnxt, hstart, hflag, fun h => hwf (Memory.wf_write _ w h)⟩
    · exact ⟨rfl, rfl, rfl, rfl, rfl, id⟩

/-- A word at an address from `k` on is the image's where the image has one; every other word is as before (R130). -/
theorem State.readWord_loadFrom (s : State) (k : Nat) (ws : List Word) (a : Addr) :
    (s.loadFrom k ws).readWord a = if a.toNat < k then s.readWord a else ws.getD (a.toNat - k) (s.readWord a) := by
  induction ws generalizing s k with
  | nil => simp [State.loadFrom]
  | cons w ws ih =>
    unfold State.loadFrom
    split
    next hk =>
      have hinject : (s.inject (BitVec.ofNat 16 k) w).readWord a = if a.toNat = k then w else s.readWord a := by
        rw [show s.inject (BitVec.ofNat 16 k) w = s.writeWord (BitVec.ofNat 16 k) w from rfl, State.readWord_writeWord]
        simp [← BitVec.toNat_inj, Nat.mod_eq_of_lt hk]
      rw [ih, hinject]
      rcases Nat.lt_trichotomy a.toNat k with hlt | heq | hgt
      · rw [if_pos (by omega), if_neg (by omega), if_pos hlt]
      · simp [heq]
      · obtain ⟨n, hn⟩ : ∃ n, a.toNat - k = n + 1 := ⟨a.toNat - k - 1, by omega⟩
        rw [if_neg (by omega), if_neg (by omega), if_neg (by omega), hn, List.getD_cons_succ,
          show a.toNat - (k + 1) = n by omega]
    next hk => rw [if_pos (by have := a.isLt; simp only [memWords] at hk; omega)]

/-- Settles O56. -/
theorem launchStateHoldsImage : Obligations.LaunchStateHoldsImage := by
  intro image
  have hload := State.reset.loadFrom_onlyLoads 0 image
  have hcfg : (State.launch image).cfg = Config.standard := hload.cfg
  have hcur : (State.launch image).cur = Snapshot.zero := hload.cur
  constructor
  · intro a
    rw [hcfg]
    show (State.reset.loadFrom 0 image).readWord a = _
    rw [State.readWord_loadFrom, if_neg (Nat.not_lt_zero _)]
    rfl
  · have hidle : (State.launch image).cur.controlState = .idle := by rw [hcur]; rfl
    exact ⟨_, (step_of_ne_fetch0 (by simp [hidle])).trans (tick_idle hidle), rfl, rfl⟩

end Sys2Proof.Machine
end

section
/-!
The consistency of a state (spec/10_state.md R17 to R28; spec/40_sequencer.md R74): what holds whatever the control state is
kept apart from what the steps of the state's own window have done so far, which grows by one clause a tick.
-/
namespace Sys2Proof.Machine

/-! The invariant, control state by control state. -/

/-- What is consistent whatever the control state. -/
structure State.Sound (s : State) : Prop where
  buffered : s.nxt = s.cur
  memory : s.mem.wf s.cfg.memFill
  counter : ∀ n, s.cfg.cycw = some n → s.cur.cycleCounter < 2 ^ n

/-- From DECODE0 on: the run goes on, no branch is taken, and `inst` is the word at `pc`. -/
structure State.Fetched (s : State) : Prop where
  running : s.start = true
  flagClear : s.branchTaken = false
  inst : s.cur.inst = s.readWord s.cur.pc

/-- From DECODE1 on: the decoded fields are those of `inst`. -/
def State.Decoded (s : State) : Prop := s.cur.decodeFrom s.cur.inst = s.cur

/-- From EXECUTE0 on: the staged operands are the operand selector's. -/
def State.Selected (s : State) : Prop :=
  (s.cur.alu0, s.cur.alu1) = selectOperands s.op s.cur.regs s.cur.immediate s.cur.dst s.cur.src0 s.cur.src1

/-- In EXECUTE1: `aluout` is the ALU's result where the opcode has one. -/
def State.Computed (s : State) : Prop := ∀ r, alu s.cfg s.op s.cur.alu0 s.cur.alu1 = some r → s.cur.aluout = r

/-- In EXECUTE1: the latch of a load holds the word at its address. -/
def State.Loaded (s : State) : Prop :=
  s.op = some .ld → ∃ ea, dataAddress s.cfg s.cur.alu1 = some ea ∧ s.readLatch = s.readWord ea

/-- How far the window of a consistent state has come, by its control state. -/
def State.Progress (s : State) : ControlState → Prop
  | .idle => True
  | .fetch0 => s.start = true
  | .fetch1 => s.start = true ∧ s.branchTaken = false ∧ s.readLatch = s.readWord s.cur.pc
  | .decode0 => s.Fetched
  | .decode1 => s.Fetched ∧ s.Decoded
  | .execute0 => s.Fetched ∧ s.Decoded ∧ s.Selected
  | .execute1 => s.Fetched ∧ s.Decoded ∧ s.Selected ∧ s.Computed ∧ s.Loaded

theorem State.Consistent.progress {s : State} (h : s.Consistent) : s.Progress s.cur.controlState := by
  have hfetched (hst : s.cur.controlState ∈ [.decode0, .decode1, .execute0, .execute1]) : s.Fetched :=
    ⟨h.running fun hidle => by simp [hidle] at hst, h.flagClear (List.mem_cons_of_mem _ hst), h.fetched hst⟩
  cases hst : s.cur.controlState with
  | idle => trivial
  | fetch0 => exact h.running (by simp [hst])
  | fetch1 => exact ⟨h.running (by simp [hst]), h.flagClear (by simp [hst]), h.latched hst⟩
  | decode0 => exact hfetched (by simp [hst])
  | decode1 => exact ⟨hfetched (by simp [hst]), h.decoded (by simp [hst])⟩
  | execute0 => exact ⟨hfetched (by simp [hst]), h.decoded (by simp [hst]), h.selected (by simp [hst])⟩
  | execute1 =>
    exact ⟨hfetched (by simp [hst]), h.decoded (by simp [hst]), h.selected (by simp [hst]), h.computed hst, h.loaded hst⟩

theorem State.Progress.fetched {s : State} {st : ControlState} (h : s.Progress st)
    (hst : st ∈ [.decode0, .decode1, .execute0, .execute1]) : s.Fetched := by
  cases st with
  | idle | fetch0 | fetch1 => simp at hst
  | decode0 => exact h
  | decode1 | execute0 | execute1 => exact h.1

theorem State.Progress.decoded {s : State} {st : ControlState} (h : s.Progress st)
    (hst : st ∈ [.decode1, .execute0, .execute1]) : s.Decoded := by
  cases st with
  | idle | fetch0 | fetch1 | decode0 => simp at hst
  | decode1 => exact h.2
  | execute0 | execute1 => exact h.2.1

theorem State.Progress.selected {s : State} {st : ControlState} (h : s.Progress st)
    (hst : st ∈ [.execute0, .execute1]) : s.Selected := by
  cases st with
  | idle | fetch0 | fetch1 | decode0 | decode1 => simp at hst
  | execute0 => exact h.2.2
  | execute1 => exact h.2.2.1

theorem State.Progress.running {s : State} {st : ControlState} (h : s.Progress st) (hst : st ≠ .idle) :
    s.start = true := by
  cases st with
  | idle => exact absurd rfl hst
  | fetch0 => exact h
  | fetch1 => exact h.1
  | decode0 | decode1 | execute0 | execute1 => exact (h.fetched (by simp)).running

theorem State.Progress.flagClear {s : State} {st : ControlState} (h : s.Progress st)
    (hst : st ∈ [.fetch1, .decode0, .decode1, .execute0, .execute1]) : s.branchTaken = false := by
  cases st with
  | idle | fetch0 => simp at hst
  | fetch1 => exact h.2.1
  | decode0 | decode1 | execute0 | execute1 => exact (h.fetched (by simp)).flagClear

/-- A sound state whose window has come as far as its control state says is consistent. -/
theorem State.Sound.consistent {s : State} (hs : s.Sound) {st : ControlState} (hst : s.cur.controlState = st)
    (hp : s.Progress st) : s.Consistent := by
  subst hst
  exact
    { buffered := hs.buffered
      memory := hs.memory
      counter := hs.counter
      running := hp.running
      flagClear := hp.flagClear
      latched := fun hst => by rw [hst] at hp; exact hp.2.2
      fetched := fun hst => (hp.fetched hst).inst
      decoded := hp.decoded
      selected := hp.selected
      computed := fun hst => by rw [hst] at hp; exact hp.2.2.2.1
      loaded := fun hst => by rw [hst] at hp; exact hp.2.2.2.2 }

theorem State.Consistent.sound {s : State} (h : s.Consistent) : s.Sound := ⟨h.buffered, h.memory, h.counter⟩

/-! Reset and launch. -/

theorem reset_sound : State.reset.Sound := ⟨rfl, by decide, fun _ h => by cases h⟩

/-- Settles O31: in IDLE there is nothing beyond soundness to ask. -/
theorem resetIsConsistent : Obligations.ResetIsConsistent := reset_sound.consistent rfl trivial

/-- Settles O32: the loader keeps what is sound, and the control state stays IDLE. -/
theorem launchIsConsistent : Obligations.LaunchIsConsistent := by
  intro image
  obtain ⟨hcfg, hcur, hnxt, -, -, hwf⟩ := State.reset.loadFrom_onlyLoads 0 image
  have hsound : (State.launch image).Sound :=
    { buffered := hnxt.trans hcur.symm
      memory := by
        show Memory.wf (State.reset.loadFrom 0 image).cfg.memFill (State.reset.loadFrom 0 image).mem
        rw [hcfg]
        exact hwf reset_sound.memory
      counter := by
        show ∀ n, (State.reset.loadFrom 0 image).cfg.cycw = some n → _
        rw [hcfg]
        intro n hn
        cases hn }
  have hidle : (State.launch image).cur.controlState = .idle := congrArg Snapshot.controlState hcur
  exact hsound.consistent hidle trivial

/-! A tick. -/

theorem Ticked.cfg {s t : State} (h : Ticked s t) : t.cfg = s.cfg := by
  cases h <;> rfl

theorem Ticked.wf {s t : State} (h : Ticked s t) (hwf : s.mem.wf s.cfg.memFill) : t.mem.wf s.cfg.memFill := by
  cases h with
  | store ea => exact Memory.wf_write ea s.cur.alu0 hwf
  | idle | fetch0 | fetch1 | decode0 | decode1 | load | compute | halt | complete => exact hwf

theorem Config.addCycles_lt {c : Config} {w : Nat} (hw : c.cycw = some w) (n k : Nat) : c.addCycles n k < 2 ^ w := by
  rw [Config.addCycles_width hw]
  exact Nat.mod_lt _ (Nat.two_pow_pos w)

theorem State.Sound.tick {s t : State} (hs : s.Sound) (h : tick s = .next t) : t.Sound where
  buffered := (ticked_of_tick h).committed
  memory := by
    rw [(ticked_of_tick h).cfg]
    exact (ticked_of_tick h).wf hs.memory
  counter := by
    rw [(ticked_of_tick h).cfg, tick_cycleCounter h]
    intro n hn
    exact Config.addCycles_lt hn _ _

/-- Decoding is five equations of fields, none of which a tick after DECODE0 writes (R47). -/
theorem State.decoded_iff {s : State} : s.Decoded ↔
    wordOpcode s.cur.inst = s.cur.opcode ∧ wordDst s.cur.inst = s.cur.dst ∧ wordSrc0 s.cur.inst = s.cur.src0
      ∧ wordSrc1 s.cur.inst = s.cur.src1 ∧ immediateOf (wordImm16 s.cur.inst) = s.cur.immediate := by
  rw [State.Decoded]
  cases s.cur
  simp [Snapshot.decodeFrom]

/-- EXECUTE1 leads to IDLE after a halt and else to FETCH0, of which only a set start flag is asked (R70, R128). -/
theorem progress_of_execute1 {s u : State} (hstart : s.op ≠ some .hlt → u.start = true) :
    (s.executed u).Progress (s.executed u).cur.controlState := by
  rw [State.executed_controlState, afterExecute1_eq]
  split
  next => trivial
  next hop => exact hstart hop

/-- Each tick adds its own clause to what the ticks before it have done. -/
theorem Ticked.progress {s t : State} (h : Ticked s t) (hp : s.Progress s.cur.controlState) :
    t.Progress t.cur.controlState := by
  cases h with
  | idle hst =>
    show (tickIdle s).Progress (if s.start then .fetch0 else .idle)
    split
    next hstart => exact hstart
    next => trivial
  | fetch0 hst =>
    rw [hst] at hp
    exact ⟨hp, rfl, rfl⟩
  | fetch1 hst =>
    rw [hst] at hp
    obtain ⟨hstart, hflag, hlatch⟩ := hp
    exact ⟨hstart, hflag, hlatch⟩
  | decode0 hst =>
    rw [hst] at hp
    obtain ⟨hstart, hflag, hinst⟩ := hp
    exact ⟨⟨hstart, hflag, hinst⟩, rfl⟩
  | decode1 hst =>
    rw [hst] at hp
    obtain ⟨⟨hstart, hflag, hinst⟩, hdecoded⟩ := hp
    have hfields := State.decoded_iff.mp hdecoded
    exact ⟨⟨hstart, hflag, hinst⟩, State.decoded_iff.mpr hfields, rfl⟩
  | load ea hst hop hea =>
    rw [hst] at hp
    obtain ⟨⟨hstart, hflag, hinst⟩, hdecoded, hselected⟩ := hp
    have hfields := State.decoded_iff.mp hdecoded
    refine ⟨⟨hstart, hflag, hinst⟩, State.decoded_iff.mpr hfields, hselected, fun r hr => ?_, fun _ => ⟨ea, hea, rfl⟩⟩
    have hnone : alu s.cfg s.op s.cur.alu0 s.cur.alu1 = none := alu_eq_none (.inl hop)
    cases hnone.symm.trans hr
  | compute hst hop =>
    rw [hst] at hp
    obtain ⟨⟨hstart, hflag, hinst⟩, hdecoded, hselected⟩ := hp
    have hfields := State.decoded_iff.mp hdecoded
    refine ⟨⟨hstart, hflag, hinst⟩, State.decoded_iff.mpr hfields, hselected, fun r hr => ?_, fun hld => absurd hld hop⟩
    have hsome : alu s.cfg s.op s.cur.alu0 s.cur.alu1 = some r := hr
    show (alu s.cfg s.op s.cur.alu0 s.cur.alu1).getD s.cur.aluout = r
    rw [hsome, Option.getD_some]
  | store ea hst => exact progress_of_execute1 fun _ => hp.running (by simp [hst])
  | halt hst hop => exact progress_of_execute1 fun h => absurd hop h
  | complete hst => exact progress_of_execute1 fun _ => hp.running (by simp [hst])

/-- Settles O29. -/
theorem tickKeepsConsistency : Obligations.TickKeepsConsistency := by
  intro s t hs ht
  exact (hs.sound.tick ht).consistent rfl ((ticked_of_tick ht).progress hs.progress)

/-! A step is one tick or six. -/

/-- How many ticks a step takes: a whole window from FETCH0, one tick elsewhere (log entry 1). -/
def ticksOfStep (st : ControlState) : Nat := if st = .fetch0 then 6 else 1

theorem step_eq_ticks (s : State) : step s = ticks (ticksOfStep s.cur.controlState) s := by
  unfold ticksOfStep
  split
  next hst => exact (sixTicksAreOneWindow s hst).symm
  next hst =>
    rw [step_of_ne_fetch0 hst]
    simp only [ticks]
    cases tick s <;> rfl

theorem ticks_keep_consistency {k : Nat} {s t : State} (hs : s.Consistent) (ht : ticks k s = .next t) : t.Consistent := by
  induction k generalizing s with
  | zero => exact Host.Outcome.next.inj ht ▸ hs
  | succ k ih =>
    rcases tick_cases s with ⟨-, hr⟩ | ⟨u, hu, -⟩
    · cases (ticks_succ_of_refused k hr).symm.trans ht
    · exact ih (tickKeepsConsistency s u hs hu) ((ticks_succ_of_next k hu).symm.trans ht)

/-- Settles O30: what every tick keeps, a window keeps. -/
theorem stepKeepsConsistency : Obligations.StepKeepsConsistency := by
  intro s t hs ht
  rw [step_eq_ticks] at ht
  exact ticks_keep_consistency hs ht

end Sys2Proof.Machine
end

section
/-!
Noninterference of the cells x[0] and x[1] (spec/10_state.md R12, R13; spec/40_sequencer.md R63; spec/60_exceptions.md R120):
two states that agree but for what no instruction can read are one state with that hidden part replaced, and a tick carries
the hidden part along without reading it.
-/
namespace Sys2Proof.Machine

/-- Two register files agree on every cell an operand can read (R60). -/
def CellsAgree (r r' : Vector Word 8) : Prop := ∀ i : RegIx, i ≠ 0 → i ≠ 1 → cell r i = cell r' i

theorem CellsAgree.setCell {r r' : Vector Word 8} (h : CellsAgree r r') (i : RegIx) (v : Word) :
    CellsAgree (setCell r i v) (setCell r' i v) := by
  intro j h0 h1
  by_cases hj : j = i
  · rw [hj, cell_setCell_self, cell_setCell_self]
  · rw [cell_setCell_of_ne _ _ _ _ hj, cell_setCell_of_ne _ _ _ _ hj, h j h0 h1]

theorem CellsAgree.opnd {r r' : Vector Word 8} (h : CellsAgree r r') (imm : Word) (i : RegIx) :
    opnd r imm i = opnd r' imm i := by
  by_cases h0 : i = 0
  · rw [h0, opnd_zero, opnd_zero]
  · by_cases h1 : i = 1
    · rw [h1, opnd_one, opnd_one]
    · rw [opnd_of_ne h0 h1, opnd_of_ne h0 h1, h i h0 h1]

theorem CellsAgree.selectOperands {r r' : Vector Word 8} (h : CellsAgree r r') (o : Option Op) (imm : Word)
    (d a b : RegIx) : selectOperands o r imm d a b = selectOperands o r' imm d a b := by
  rw [selectOperands_eq, selectOperands_eq, h.opnd, h.opnd]

/-- The state with everything replaced that no instruction reads: the register file, the next snapshot, the events emitted
so far. -/
def State.withHidden (s : State) (r : Vector Word 8) (n : Snapshot) (e : List Event) : State :=
  { s with cur := s.cur.setRegs r, nxt := n, events := e }

theorem State.withHidden_same {s : State} {r : Vector Word 8} (h : CellsAgree s.cur.regs r) (n : Snapshot)
    (e : List Event) : SameButCells01 s (s.withHidden r n e) :=
  ⟨rfl, h, rfl, rfl, rfl, rfl, rfl, rfl⟩

theorem SameButCells01.eq_withHidden {s s' : State} (h : SameButCells01 s s') :
    s' = s.withHidden s'.cur.regs s'.nxt s'.events := by
  obtain ⟨hcfg, -, hcur, hmem, hstart, hflag, hlatch, hretired⟩ := h
  have hcur' : s.cur.setRegs s'.cur.regs = s'.cur := hcur
  simp only [State.withHidden, hcfg, hcur', hmem, hstart, hflag, hlatch, hretired]

/-- From `s` to `t` and from `s'` to `t'` the states stay the same but for the hidden part, and the same events are emitted
but for the cells x[0] and x[1] of a trace record. -/
def StaySame (s s' t t' : State) : Prop := SameButCells01 t t' ∧ SameNewEvents s s' t t'

/-- A tick that emits nothing and writes no register carries the hidden part along; its commit replaces the next
snapshot. -/
theorem staySame_quiet {s t t' : State} {r : Vector Word 8} (h : CellsAgree s.cur.regs r) (n : Snapshot)
    (e : List Event) (hregs : t.cur.regs = s.cur.regs) (hevents : t.events = s.events)
    (ht' : t' = t.withHidden r (t.cur.setRegs r) e) : StaySame s (s.withHidden r n e) t t' := by
  subst ht'
  rw [← hregs] at h
  exact ⟨State.withHidden_same h _ e, [], [], by rw [hevents, List.append_nil], (List.append_nil e).symm, .nil⟩

/-! A tick. -/

theorem tickDecode1_withHidden {s : State} {r : Vector Word 8} (h : CellsAgree s.cur.regs r) (n : Snapshot)
    (e : List Event) :
    tickDecode1 (s.withHidden r n e) = (tickDecode1 s).withHidden r ((tickDecode1 s).cur.setRegs r) e := by
  simp only [tickDecode1, h.selectOperands]
  rfl

/-- EXECUTE1 writes the same value to the same cell whatever the hidden part. -/
theorem State.committedRegs_withHidden {s : State} {r : Vector Word 8} (h : CellsAgree s.cur.regs r) (n : Snapshot)
    (e : List Event) : CellsAgree s.committedRegs (s.withHidden r n e).committedRegs := by
  rw [State.committedRegs_eq, State.committedRegs_eq (s.withHidden r n e)]
  show CellsAgree _ (if writesAluout s.op then setCell r s.cur.dst s.cur.aluout
    else if s.op = some .ld then setCell r s.cur.dst s.readLatch
    else if branchTakenNow s.op s.cur.aluout then setCell r linkIx (linkOf s.cur.pc) else r)
  split
  · exact h.setCell _ _
  · split
    · exact h.setCell _ _
    · split
      · exact h.setCell _ _
      · exact h

theorem sameEvent_trace {c : Snapshot} {r q q' : Vector Word 8} (k : Nat) (o : Option Op) (h : CellsAgree q q') :
    SameEventButCells01 (.trace (traceRecord k o c q)) (.trace (traceRecord k o (c.setRegs r) q')) :=
  .trace _ _ h rfl

/-- EXECUTE1 after effects `u` that emit the events `new`, whatever the hidden part. -/
theorem staySame_executed {s u u' : State} {r : Vector Word 8} (h : CellsAgree s.cur.regs r) (n : Snapshot)
    (e new : List Event) (hu : u' = u.withHidden r n (e ++ new)) (hevents : u.events = s.events ++ new)
    (hnew : List.Forall₂ SameEventButCells01 new new) :
    StaySame s (s.withHidden r n e) (s.executed u) ((s.withHidden r n e).executed u') := by
  subst hu
  have hcells := State.committedRegs_withHidden h n e
  have htrace := sameEvent_trace (c := s.cur) (r := r) u.retired s.op hcells
  refine ⟨⟨rfl, hcells, rfl, rfl, rfl, rfl, rfl, rfl⟩, _, _, ?_, ?_, List.rel_append hnew (.cons htrace .nil)⟩
  · rw [State.executed_events, hevents, List.append_assoc]
  · rw [State.executed_events]
    exact List.append_assoc e new _

theorem tick_withHidden (s : State) {r : Vector Word 8} (h : CellsAgree s.cur.regs r) (n : Snapshot) (e : List Event) :
    Alike (StaySame s (s.withHidden r n e)) (tick s) (tick (s.withHidden r n e)) := by
  rcases tick_cases s with ⟨hnone, ht⟩ | ⟨t, ht, hcase⟩
  · rw [ht]
    have ht' := tick_of_addressless (s := s.withHidden r n e) hnone
    rw [ht']
    exact alike_refused _ _
  · rw [ht]
    cases hcase with
    | idle hst =>
      rw [tick_idle (s := s.withHidden r n e) hst]
      exact alike_next (staySame_quiet h n e rfl rfl rfl)
    | fetch0 hst =>
      rw [tick_fetch0 (s := s.withHidden r n e) hst]
      exact alike_next (staySame_quiet h n e rfl rfl rfl)
    | fetch1 hst =>
      rw [tick_fetch1 (s := s.withHidden r n e) hst]
      exact alike_next (staySame_quiet h n e rfl rfl rfl)
    | decode0 hst =>
      rw [tick_decode0 (s := s.withHidden r n e) hst]
      exact alike_next (staySame_quiet h n e rfl rfl rfl)
    | decode1 hst =>
      rw [tick_decode1 (s := s.withHidden r n e) hst]
      exact alike_next (staySame_quiet h n e rfl rfl (tickDecode1_withHidden h n e))
    | load ea hst hop hea =>
      rw [tick_loadIssued (s := s.withHidden r n e) hst hop hea]
      exact alike_next (staySame_quiet h n e rfl rfl rfl)
    | compute hst hop =>
      rw [tick_aluComputed (s := s.withHidden r n e) hst hop]
      exact alike_next (staySame_quiet h n e rfl rfl rfl)
    | store ea hst hop hea =>
      rw [tick_store (s := s.withHidden r n e) hst hop hea]
      exact alike_next (staySame_executed h n e [] (by rw [List.append_nil]; rfl) (by simp) .nil)
    | halt hst hop =>
      rw [tick_halt (s := s.withHidden r n e) hst hop]
      refine alike_next (staySame_executed h n e [.dump s.cfg.memFill s.mem, .stop] ?_ (by simp) ?_)
      · rw [← List.singleton_append, ← List.append_assoc]
        rfl
      · exact .cons (.dump _ _) (.cons .stop .nil)
    | complete hst hop hhlt =>
      rw [tick_complete (s := s.withHidden r n e) hst hop hhlt]
      exact alike_next (staySame_executed h n e [] (by rw [List.append_nil]) (by simp) .nil)

theorem tick_alike {s s' : State} (h : SameButCells01 s s') : Alike (StaySame s s') (tick s) (tick s') := by
  rw [h.eq_withHidden]
  exact tick_withHidden s h.cells s'.nxt s'.events

/-! A step. -/

theorem SameNewEvents.trans {s s' t t' u u' : State} (h : SameNewEvents s s' t t') (g : SameNewEvents t t' u u') :
    SameNewEvents s s' u u' := by
  obtain ⟨e, e', he, he', hsame⟩ := h
  obtain ⟨f, f', hf, hf', hsame'⟩ := g
  refine ⟨e ++ f, e' ++ f', ?_, ?_, List.rel_append hsame hsame'⟩
  · rw [hf, he, List.append_assoc]
  · rw [hf', he', List.append_assoc]

theorem ticks_alike {s s' : State} (k : Nat) (h : SameButCells01 s s') :
    Alike (StaySame s s') (ticks k s) (ticks k s') := by
  induction k generalizing s s' with
  | zero => exact alike_next ⟨h, [], [], (List.append_nil _).symm, (List.append_nil _).symm, .nil⟩
  | succ k ih =>
    rcases tick_alike h with ⟨t, t', ht, ht', hsame, hevents⟩ | ⟨r, hr, hr'⟩
    · rw [ticks_succ_of_next k ht, ticks_succ_of_next k ht']
      rcases ih hsame with ⟨u, u', hu, hu', hsame', hevents'⟩ | ⟨r, hr, hr'⟩
      · exact .inl ⟨u, u', hu, hu', hsame', hevents.trans hevents'⟩
      · exact .inr ⟨r, hr, hr'⟩
    · rw [ticks_succ_of_refused k hr, ticks_succ_of_refused k hr']
      exact alike_refused _ _

/-- Settles O33: the two states take as many ticks in a step, and each tick keeps them the same. -/
theorem cells0And1AreNeverRead : Obligations.Cells0And1AreNeverRead := by
  intro s s' h
  have hst : s'.cur.controlState = s.cur.controlState := (congrArg Snapshot.controlState h.snapshot).symm
  rw [step_eq_ticks s, step_eq_ticks s', hst]
  exact ticks_alike _ h

end Sys2Proof.Machine
end
